-- ==== Sys2Proof/Word.lean ====
section
/-! DEFINITION. The widths of this machine: every value is unsigned (spec/00_scope.md R8 to R10). -/

namespace Sys2Proof

/-- A byte: a general register, a timer, a memory cell, the immediate `nn` (R20, R32, R40, R93). -/
abbrev Byte := BitVec 8

/-- A 16-bit quantity: pc, I, a stack entry, an instruction word (R24, R30, R36, R90). -/
abbrev Word := BitVec 16

/-- A 4-bit field of an instruction: `x`, `y`, `n`, or four bits the decoder ignores (R9, R98). -/
abbrev Nibble := BitVec 4

/-- The 12-bit field `nnn` (R9). -/
abbrev Addr12 := BitVec 12

/-- The width of `fault_addr`: the first address an access needed that is not memory (R35). -/
abbrev Addr17 := BitVec 17

end Sys2Proof
end

