-- ==== Sys2Proof/Syntax.lean ====
section
/-! DEFINITION. The 34 instructions: one constructor for each row of spec/opcode_table.json, in the table's
order (spec/30_encoding.md R96). Bits the decoder ignores (R98) are kept as a field `u` (or the unused `y` of
SHR and SHL): they select nothing, but the word they belong to is what a fatal condition latches in fault_word
(R301 to R304), and an instruction is then the same thing as its word. -/

namespace Sys2Proof

inductive Instr where
  | cls (u : Nibble)                 -- CLS        0-E0
  | ret (u : Nibble)                 -- RET        0-EE
  | jp (nnn : Addr12)                -- JP         1nnn
  | call (nnn : Addr12)              -- CALL       2nnn
  | seImm (x : Nibble) (nn : Byte)   -- SE_IMM     3xnn
  | sneImm (x : Nibble) (nn : Byte)  -- SNE_IMM    4xnn
  | seReg (x y u : Nibble)           -- SE_REG     5xy-
  | ldImm (x : Nibble) (nn : Byte)   -- LD_IMM     6xnn
  | addImm (x : Nibble) (nn : Byte)  -- ADD_IMM    7xnn
  | ldReg (x y : Nibble)             -- LD_REG     8xy0
  | or (x y : Nibble)                -- OR         8xy1
  | and (x y : Nibble)               -- AND        8xy2
  | xor (x y : Nibble)               -- XOR        8xy3
  | addVxVy (x y : Nibble)           -- ADD_VX_VY  8xy4
  | subVxVy (x y : Nibble)           -- SUB_VX_VY  8xy5
  | shr (x y : Nibble)               -- SHR        8xy6
  | subn (x y : Nibble)              -- SUBN       8xy7
  | shl (x y : Nibble)               -- SHL        8xyE
  | sneReg (x y u : Nibble)          -- SNE_REG    9xy-
  | ldI (nnn : Addr12)               -- LD_I       Annn
  | jpV0 (nnn : Addr12)              -- JP_V0      Bnnn
  | rnd (x : Nibble) (nn : Byte)     -- RND        Cxnn
  | drw (x y n : Nibble)             -- DRW        Dxyn
  | skp (x : Nibble)                 -- SKP        Ex9E
  | sknp (x : Nibble)                -- SKNP       ExA1
  | ldDt (x : Nibble)                -- LD_DT      Fx07
  | ldKey (x : Nibble)               -- LD_KEY     Fx0A
  | setDt (x : Nibble)               -- SET_DT     Fx15
  | setSt (x : Nibble)               -- SET_ST     Fx18
  | addI (x : Nibble)                -- ADD_I      Fx1E
  | ldFont (x : Nibble)              -- LD_FONT    Fx29
  | ldBcd (x : Nibble)               -- LD_BCD     Fx33
  | store (x : Nibble)               -- STORE      Fx55
  | load (x : Nibble)                -- LOAD       Fx65
  deriving DecidableEq, Repr

end Sys2Proof
end

