-- ==== Sys2Proof/Decode.lean ====
section
/-! DEFINITION. From bytes to an instruction and back (spec/30_encoding.md R90 to R102, spec/00_scope.md R9).
The opcode numbers are those of R96; which of them the spec has from general knowledge says R100 (log entry 10). -/

namespace Sys2Proof

/-! ### The five fields, taken from every word (R9, R92) -/

/-- The family nibble `word[15:12]` (R9, R95). -/
def family (w : Word) : Nibble := w.extractLsb' 12 4

/-- `x = word[11:8]` (R9). -/
def fieldX (w : Word) : Nibble := w.extractLsb' 8 4

/-- `y = word[7:4]` (R9). -/
def fieldY (w : Word) : Nibble := w.extractLsb' 4 4

/-- `n = word[3:0]` (R9). -/
def fieldN (w : Word) : Nibble := w.extractLsb' 0 4

/-- `nn = word[7:0]` (R9). -/
def fieldNN (w : Word) : Byte := w.extractLsb' 0 8

/-- `nnn = word[11:0]` (R9). -/
def fieldNNN (w : Word) : Addr12 := w.extractLsb' 0 12

/-! ### Decoding -/

/-- Why bytes are no instruction: the four families with unrecognised words (R102), or fewer than the two bytes
every instruction has (R90; the fetch always supplies two, so a cycle never meets this one). -/
inductive Reject where
  | family0 | family8 | familyE | familyF | truncated
  deriving DecidableEq, Repr

/-- Family 0x0: secondary decode on the low byte; `x` is not examined (R95, R97, R98 a). -/
def decodeFamily0 (w : Word) : Except Reject Instr :=
  if fieldNN w = 0xE0#8 then .ok (.cls (fieldX w))
  else if fieldNN w = 0xEE#8 then .ok (.ret (fieldX w))
  else .error .family0

/-- Family 0x8: secondary decode on the low nibble (R95, R97). -/
def decodeFamily8 (w : Word) : Except Reject Instr :=
  match fieldN w with
  | 0x0#4 => .ok (.ldReg (fieldX w) (fieldY w))
  | 0x1#4 => .ok (.or (fieldX w) (fieldY w))
  | 0x2#4 => .ok (.and (fieldX w) (fieldY w))
  | 0x3#4 => .ok (.xor (fieldX w) (fieldY w))
  | 0x4#4 => .ok (.addVxVy (fieldX w) (fieldY w))
  | 0x5#4 => .ok (.subVxVy (fieldX w) (fieldY w))
  | 0x6#4 => .ok (.shr (fieldX w) (fieldY w))
  | 0x7#4 => .ok (.subn (fieldX w) (fieldY w))
  | 0xE#4 => .ok (.shl (fieldX w) (fieldY w))
  | _ => .error .family8

/-- Family 0xE: secondary decode on the low byte (R95, R97). -/
def decodeFamilyE (w : Word) : Except Reject Instr :=
  if fieldNN w = 0x9E#8 then .ok (.skp (fieldX w))
  else if fieldNN w = 0xA1#8 then .ok (.sknp (fieldX w))
  else .error .familyE

/-- Family 0xF: secondary decode on the low byte (R95, R97). -/
def decodeFamilyF (w : Word) : Except Reject Instr :=
  if fieldNN w = 0x07#8 then .ok (.ldDt (fieldX w))
  else if fieldNN w = 0x0A#8 then .ok (.ldKey (fieldX w))
  else if fieldNN w = 0x15#8 then .ok (.setDt (fieldX w))
  else if fieldNN w = 0x18#8 then .ok (.setSt (fieldX w))
  else if fieldNN w = 0x1E#8 then .ok (.addI (fieldX w))
  else if fieldNN w = 0x29#8 then .ok (.ldFont (fieldX w))
  else if fieldNN w = 0x33#8 then .ok (.ldBcd (fieldX w))
  else if fieldNN w = 0x55#8 then .ok (.store (fieldX w))
  else if fieldNN w = 0x65#8 then .ok (.load (fieldX w))
  else .error .familyF

/-- The two-level decode of a word (R95 to R98, R122): it depends on the 16 bits and on nothing else. -/
def decodeWord (w : Word) : Except Reject Instr :=
  match family w with
  | 0x0#4 => decodeFamily0 w
  | 0x1#4 => .ok (.jp (fieldNNN w))
  | 0x2#4 => .ok (.call (fieldNNN w))
  | 0x3#4 => .ok (.seImm (fieldX w) (fieldNN w))
  | 0x4#4 => .ok (.sneImm (fieldX w) (fieldNN w))
  | 0x5#4 => .ok (.seReg (fieldX w) (fieldY w) (fieldN w))
  | 0x6#4 => .ok (.ldImm (fieldX w) (fieldNN w))
  | 0x7#4 => .ok (.addImm (fieldX w) (fieldNN w))
  | 0x8#4 => decodeFamily8 w
  | 0x9#4 => .ok (.sneReg (fieldX w) (fieldY w) (fieldN w))
  | 0xA#4 => .ok (.ldI (fieldNNN w))
  | 0xB#4 => .ok (.jpV0 (fieldNNN w))
  | 0xC#4 => .ok (.rnd (fieldX w) (fieldNN w))
  | 0xD#4 => .ok (.drw (fieldX w) (fieldY w) (fieldN w))
  | 0xE#4 => decodeFamilyE w
  | _ => decodeFamilyF w  -- 0xF, the one family left

/-- Two bytes as a word, the byte at the lower address the high one (R64). -/
def wordOfBytes (high low : Byte) : Word := BitVec.ofNat 16 (high.toNat * 256 + low.toNat)

/-- Decode the first instruction of a list of bytes, and give the rest. -/
def decodeBytes : List Byte → Except Reject (Instr × List Byte)
  | high :: low :: rest => (decodeWord (wordOfBytes high low)).map (fun i => (i, rest))
  | _ => .error .truncated

/-! ### Encoding, from the same table (R91, R96) -/

/-- Format NNN: a family and a 12-bit operand (R91). -/
def wordNNN (f : Nibble) (nnn : Addr12) : Word := BitVec.ofNat 16 (f.toNat * 4096 + nnn.toNat)

/-- Formats XNN, XS and S: a family, bits 11:8, and the low byte (R91). -/
def wordXNN (f x : Nibble) (nn : Byte) : Word := BitVec.ofNat 16 (f.toNat * 4096 + x.toNat * 256 + nn.toNat)

/-- Formats XY, XYN and XYS: a family and three nibbles (R91). -/
def wordXYN (f x y n : Nibble) : Word :=
  BitVec.ofNat 16 (f.toNat * 4096 + x.toNat * 256 + y.toNat * 16 + n.toNat)

/-- The word of an instruction (R91 formats, R96 numbers). -/
def encode : Instr → Word
  | .cls u => wordXNN 0x0#4 u 0xE0#8
  | .ret u => wordXNN 0x0#4 u 0xEE#8
  | .jp nnn => wordNNN 0x1#4 nnn
  | .call nnn => wordNNN 0x2#4 nnn
  | .seImm x nn => wordXNN 0x3#4 x nn
  | .sneImm x nn => wordXNN 0x4#4 x nn
  | .seReg x y u => wordXYN 0x5#4 x y u
  | .ldImm x nn => wordXNN 0x6#4 x nn
  | .addImm x nn => wordXNN 0x7#4 x nn
  | .ldReg x y => wordXYN 0x8#4 x y 0x0#4
  | .or x y => wordXYN 0x8#4 x y 0x1#4
  | .and x y => wordXYN 0x8#4 x y 0x2#4
  | .xor x y => wordXYN 0x8#4 x y 0x3#4
  | .addVxVy x y => wordXYN 0x8#4 x y 0x4#4
  | .subVxVy x y => wordXYN 0x8#4 x y 0x5#4
  | .shr x y => wordXYN 0x8#4 x y 0x6#4
  | .subn x y => wordXYN 0x8#4 x y 0x7#4
  | .shl x y => wordXYN 0x8#4 x y 0xE#4
  | .sneReg x y u => wordXYN 0x9#4 x y u
  | .ldI nnn => wordNNN 0xA#4 nnn
  | .jpV0 nnn => wordNNN 0xB#4 nnn
  | .rnd x nn => wordXNN 0xC#4 x nn
  | .drw x y n => wordXYN 0xD#4 x y n
  | .skp x => wordXNN 0xE#4 x 0x9E#8
  | .sknp x => wordXNN 0xE#4 x 0xA1#8
  | .ldDt x => wordXNN 0xF#4 x 0x07#8
  | .ldKey x => wordXNN 0xF#4 x 0x0A#8
  | .setDt x => wordXNN 0xF#4 x 0x15#8
  | .setSt x => wordXNN 0xF#4 x 0x18#8
  | .addI x => wordXNN 0xF#4 x 0x1E#8
  | .ldFont x => wordXNN 0xF#4 x 0x29#8
  | .ldBcd x => wordXNN 0xF#4 x 0x33#8
  | .store x => wordXNN 0xF#4 x 0x55#8
  | .load x => wordXNN 0xF#4 x 0x65#8

/-- The high byte of a word, stored at the lower address (R64). -/
def highByte (w : Word) : Byte := w.extractLsb' 8 8

/-- The low byte of a word, stored at the higher address (R64). -/
def lowByte (w : Word) : Byte := w.extractLsb' 0 8

/-- A word as it lies in memory (R64). -/
def bytesOfWord (w : Word) : List Byte := [highByte w, lowByte w]

/-- An instruction as it lies in memory (R90). -/
def encodeBytes (i : Instr) : List Byte := bytesOfWord (encode i)

/-! ### The opcode table as data (R96) -/

/-- `mask` and `match` of an instruction's row of R96: `w` is the row's when `w &&& mask = match`. -/
def Instr.row : Instr → Word × Word
  | .cls _ => (0xF0FF#16, 0x00E0#16)
  | .ret _ => (0xF0FF#16, 0x00EE#16)
  | .jp _ => (0xF000#16, 0x1000#16)
  | .call _ => (0xF000#16, 0x2000#16)
  | .seImm _ _ => (0xF000#16, 0x3000#16)
  | .sneImm _ _ => (0xF000#16, 0x4000#16)
  | .seReg _ _ _ => (0xF000#16, 0x5000#16)
  | .ldImm _ _ => (0xF000#16, 0x6000#16)
  | .addImm _ _ => (0xF000#16, 0x7000#16)
  | .ldReg _ _ => (0xF00F#16, 0x8000#16)
  | .or _ _ => (0xF00F#16, 0x8001#16)
  | .and _ _ => (0xF00F#16, 0x8002#16)
  | .xor _ _ => (0xF00F#16, 0x8003#16)
  | .addVxVy _ _ => (0xF00F#16, 0x8004#16)
  | .subVxVy _ _ => (0xF00F#16, 0x8005#16)
  | .shr _ _ => (0xF00F#16, 0x8006#16)
  | .subn _ _ => (0xF00F#16, 0x8007#16)
  | .shl _ _ => (0xF00F#16, 0x800E#16)
  | .sneReg _ _ _ => (0xF000#16, 0x9000#16)
  | .ldI _ => (0xF000#16, 0xA000#16)
  | .jpV0 _ => (0xF000#16, 0xB000#16)
  | .rnd _ _ => (0xF000#16, 0xC000#16)
  | .drw _ _ _ => (0xF000#16, 0xD000#16)
  | .skp _ => (0xF0FF#16, 0xE09E#16)
  | .sknp _ => (0xF0FF#16, 0xE0A1#16)
  | .ldDt _ => (0xF0FF#16, 0xF007#16)
  | .ldKey _ => (0xF0FF#16, 0xF00A#16)
  | .setDt _ => (0xF0FF#16, 0xF015#16)
  | .setSt _ => (0xF0FF#16, 0xF018#16)
  | .addI _ => (0xF0FF#16, 0xF01E#16)
  | .ldFont _ => (0xF0FF#16, 0xF029#16)
  | .ldBcd _ => (0xF0FF#16, 0xF033#16)
  | .store _ => (0xF0FF#16, 0xF055#16)
  | .load _ => (0xF0FF#16, 0xF065#16)

/-! ### The host's question about one opcode-table row -/

/-- The instruction word whose bits are `w`, of which the table gives the low `nbits`; the others are 0. -/
def tableWord (nbits w : Nat) : Word := BitVec.ofNat 16 (w % 2 ^ nbits)

/-- What the decoder reads from that word, laid out in memory as the hardware stores it. -/
def decodeTableWord (nbits w : Nat) : Option Instr :=
  match decodeBytes (bytesOfWord (tableWord nbits w)) with
  | .ok (i, _) => some i
  | .error _ => none

end Sys2Proof
end

