-- ==== Sys2Proof/Config.lean ====
section
/-! DEFINITION. What is fixed for the machine (spec/00_scope.md R5) and the one value the spec leaves free
(the random byte, R202 and R280). The font's place and bytes stand in Machine/Ops.lean. -/

namespace Sys2Proof.Config

/-- `MEM_SIZE`: main memory is addresses 0 to 4095 (R5, R40). -/
def memSize : Nat := 4096

/-- `PROGRAM_BASE`: where a program is loaded and where pc starts (R5, R24). -/
def programBase : Nat := 0x200

/-- `ROM_MAX` = `MEM_SIZE - 0x200` (R5, R72). -/
def romMax : Nat := 3584

/-- `STACK_DEPTH` (R5, R36). -/
def stackDepth : Nat := 16

/-- `RANDOM_SOURCE` (R6, R202, R280, decision D27): the byte the k-th RND samples. A FREE VALUE: it has no
body, so nothing can be proved about any of its bytes, nor that two of them agree or differ.
DESIGN CHOICE (log entry 1): safe for one run, unsafe for a claim that compares two runs. -/
opaque rnd : Nat → Byte

end Sys2Proof.Config
end

