-- ==== Sys2Proof/Machine/State.lean ====
section
/-! DEFINITION. The Machine State (spec/10_state.md R20 to R47), its reset value (R46, R340), the host's
operations as data (spec/49_host_operations.md), and the reasons a step can stop. -/

namespace Sys2Proof.Machine

/-- `fatal_cause` (R35, R300). -/
inductive Cause where
  | none | stackOverflow | stackUnderflow | fetchOob | dataOob
  deriving DecidableEq, Repr

/-- The result of a Step (R124). -/
inductive Status where
  | done | waiting | unrecognised | fatal
  deriving DecidableEq, Repr

/-- One operation the host performs on the block, each atomic, one at a time (R270 to R279). -/
inductive HostOp where
  | step                                  -- R271: run one cycle
  | tick                                  -- R272, R319: tick the timers
  | reset                                 -- R274, R340
  | romLoad (image : List Byte)           -- R275
  | keyWrite (k : Nibble) (down : Bool)   -- R276
  | frameAck                              -- R277
  | frameRead                             -- R278: no effect on state
  | stateRead                             -- R279: no effect on state
  deriving DecidableEq, Repr

/-- Main memory (R40, R60), as the cells that differ from what reset leaves there. -/
abbrev Memory := List Host.Cell

/-- The framebuffer: 32 rows of 64 columns, `fb[r][c]` (R38). -/
abbrev Screen := Vector (Vector Bool 64) 32

structure State where
  v           : Vector Byte 16    -- V0 to VF (R20)
  idx         : Word              -- the index register I (R30)
  pc          : Word              -- R24
  sp          : Fin 17            -- entries on the call stack, 0 to 16 (R31)
  stack       : Vector Word 16    -- stack[0] is the oldest (R36)
  dt          : Byte              -- delay timer (R32)
  st          : Byte              -- sound timer (R33)
  fb          : Screen            -- R38
  key         : Vector Bool 16    -- true = down (R37)
  drawPending : Bool              -- R34
  mem         : Memory            -- R40
  fatalCause  : Cause             -- R35
  faultPc     : Word              -- R35
  faultWord   : Word              -- R35
  faultAddr   : Addr17            -- R35
  reportWord  : Word              -- R35
  reportAddr  : Word              -- R35
  reportCount : Nat               -- R35
  status      : Status            -- the status port: result of the last Step (R124, R281)
  rndIndex    : Nat               -- the model's own: random bytes drawn so far (log entry 1)
  loadOpen    : Bool              -- the model's own: a ROM load is still permitted (log entry 5)
  pending     : List HostOp       -- the model's own: the host's coming operations, oldest first (log entry 3)
  deriving DecidableEq, Repr

/-- A named reason to stop. No instruction and no Step raises one: what the spec calls fatal is a next state
with the status latches written (R312). -/
inductive Fault where
  /-- Raised by the host operation ROM load when the image is longer than 3584 bytes: the load fails and
  execution must not start (R275, R306). Safe: the run ends, and nothing is said about a state after it. -/
  | romLoadFailed
  deriving DecidableEq, Repr

/-- A named reason why no meaning is given. -/
inductive Refusal where
  /-- Raised by an arm of exec whose instruction has no meaning yet; no arm is. Safe. -/
  | notModelled (mnemonic : String)
  /-- Raised by the host operation ROM load after a Step or a load since reset: the contract does not permit it
  (R275, decision D24, U22). Safe: the run ends. -/
  | romLoadOutOfTurn
  deriving DecidableEq, Repr

/-- The machine after reset (R46, R340). `status` is DESIGN CHOICE (log entry 7, unsafe); `rndIndex`,
`loadOpen` and `pending` are the model's own fields (log entries 1, 5, 3). Memory lists nothing: what an
unlisted address reads as is its reset content (`Memory.initial`). -/
def State.reset : State where
  v           := Vector.replicate 16 0#8
  idx         := 0#16
  pc          := 0x200#16
  sp          := 0
  stack       := Vector.replicate 16 0#16
  dt          := 0#8
  st          := 0#8
  fb          := Vector.replicate 32 (Vector.replicate 64 false)
  key         := Vector.replicate 16 false
  drawPending := false
  mem         := []
  fatalCause  := .none
  faultPc     := 0#16
  faultWord   := 0#16
  faultAddr   := 0#17
  reportWord  := 0#16
  reportAddr  := 0#16
  reportCount := 0
  status      := .done
  rndIndex    := 0
  loadOpen    := true
  pending     := []

end Sys2Proof.Machine
end

