-- ==== Sys2Proof/Machine/Ops.lean ====
section
/-! DEFINITION. The named operations over memory, registers, pc, stack and status latches that every meaning is
built from, with the entry to a fatal condition and to the unrecognised-opcode report (spec/60_exceptions.md). -/

namespace Sys2Proof.Machine

/-- The number of a cause (R300). -/
def Cause.code : Cause → BitVec 3
  | .none => 0
  | .stackOverflow => 1
  | .stackUnderflow => 2
  | .fetchOob => 3
  | .dataOob => 4

/-- The number of a status (R124). -/
def Status.code : Status → BitVec 2
  | .done => 0
  | .waiting => 1
  | .unrecognised => 2
  | .fatal => 3

/-! ### Main memory (spec/20_memory.md) -/

/-- `FONT_BASE` (R6, R43). -/
def fontBase : Nat := 0x000

/-- `FONT_DATA`: 16 glyphs of 5 bytes, for the digits 0 to F (R44; the bytes are from general knowledge,
log entry 11). -/
def fontData : List Byte :=
  [0xF0#8, 0x90#8, 0x90#8, 0x90#8, 0xF0#8,    -- 0
   0x20#8, 0x60#8, 0x20#8, 0x20#8, 0x70#8,    -- 1
   0xF0#8, 0x10#8, 0xF0#8, 0x80#8, 0xF0#8,    -- 2
   0xF0#8, 0x10#8, 0xF0#8, 0x10#8, 0xF0#8] ++ -- 3
  [0x90#8, 0x90#8, 0xF0#8, 0x10#8, 0x10#8,    -- 4
   0xF0#8, 0x80#8, 0xF0#8, 0x10#8, 0xF0#8,    -- 5
   0xF0#8, 0x80#8, 0xF0#8, 0x90#8, 0xF0#8,    -- 6
   0xF0#8, 0x10#8, 0x20#8, 0x40#8, 0x40#8] ++ -- 7
  [0xF0#8, 0x90#8, 0xF0#8, 0x90#8, 0xF0#8,    -- 8
   0xF0#8, 0x90#8, 0xF0#8, 0x10#8, 0xF0#8,    -- 9
   0xF0#8, 0x90#8, 0xF0#8, 0x90#8, 0x90#8,    -- A
   0xE0#8, 0x90#8, 0xE0#8, 0x90#8, 0xE0#8] ++ -- B
  [0xF0#8, 0x80#8, 0x80#8, 0x80#8, 0xF0#8,    -- C
   0xE0#8, 0x90#8, 0x90#8, 0x90#8, 0xE0#8,    -- D
   0xF0#8, 0x80#8, 0xF0#8, 0x80#8, 0xF0#8,    -- E
   0xF0#8, 0x80#8, 0xF0#8, 0x80#8, 0x80#8]    -- F

/-- What an address that memory does not list reads as: the byte reset leaves there, a font byte or 0
(R46, R340). -/
def Memory.initial (a : Nat) : Byte :=
  if fontBase ≤ a then fontData.getD (a - fontBase) 0#8 else 0#8

/-- The byte a memory lists for an address, if it lists one. -/
def Memory.listed : Memory → Nat → Option Byte
  | [], _ => none
  | (k, b) :: rest, a => if a = k then some b else Memory.listed rest a

/-- The byte at an address: the most recent write to it, else the reset content (R75, R341). -/
def Memory.read (m : Memory) (a : Nat) : Byte := (Memory.listed m a).getD (Memory.initial a)

/-- A memory without a cell for an address: the address then reads as its reset content. -/
def Memory.erase (m : Memory) (a : Nat) : Memory := m.filter fun c => c.1 != a

/-- A memory that lists no cell for an address, with one added in its place in the rising order. -/
def Memory.insert : Memory → Nat → Byte → Memory
  | [], a, b => [(a, b)]
  | (k, c) :: rest, a, b => if a < k then (a, b) :: (k, c) :: rest else (k, c) :: Memory.insert rest a b

/-- Write one byte, keeping the canonical form (R60: a write changes that byte and nothing else). -/
def Memory.write (m : Memory) (a : Nat) (b : Byte) : Memory :=
  if b = Memory.initial a then Memory.erase m a else Memory.insert (Memory.erase m a) a b

/-- Write bytes at consecutive ascending addresses (R65). -/
def Memory.writeBytes : Memory → Nat → List Byte → Memory
  | m, _, [] => m
  | m, a, b :: bs => Memory.writeBytes (Memory.write m a b) (a + 1) bs

/-- Read `n` bytes at consecutive ascending addresses (R65). -/
def Memory.readBytes (m : Memory) : Nat → Nat → List Byte
  | _, 0 => []
  | a, n + 1 => Memory.read m a :: Memory.readBytes m (a + 1) n

/-- Every listed cell is above `lo`, inside memory, and not what an unlisted address reads as; addresses rise. -/
def Memory.wfFrom : Nat → Memory → Bool
  | _, [] => true
  | lo, (k, b) :: rest =>
    decide (lo ≤ k) && decide (k < Config.memSize) && decide (b ≠ Memory.initial k) && Memory.wfFrom (k + 1) rest

/-- The canonical form of memory: equal memories are equal lists. -/
def Memory.wf (m : Memory) : Bool := Memory.wfFrom 0 m

/-- `MemRead(addr, 1)` for an address that has been checked (R11, R69). -/
def State.readByte (s : State) (a : Nat) : Byte := Memory.read s.mem a

/-- The sprite or data bytes at consecutive addresses, checked before (R61, R69). -/
def State.readBytes (s : State) (a n : Nat) : List Byte := Memory.readBytes s.mem a n

/-- `MemWrite` at consecutive addresses, checked before (R11, R69). -/
def State.writeBytes (s : State) (a : Nat) (bs : List Byte) : State :=
  { s with mem := Memory.writeBytes s.mem a bs }

/-! ### Registers (spec/10_state.md) -/

/-- `V[x]` (R11, R20). -/
def State.reg (s : State) (x : Nibble) : Byte := s.v[x.toNat]'x.isLt

/-- `V[x] <- b` (R11, R20): no register is hardwired. -/
def State.setReg (s : State) (x : Nibble) (b : Byte) : State :=
  { s with v := s.v.set x.toNat b x.isLt }

/-- `VF <- flag` (R27): the flag value is 0 or 1. -/
def State.setFlag (s : State) (flag : Bool) : State := s.setReg 0xF#4 (if flag then 1#8 else 0#8)

/-- `I <- w` (R30). -/
def State.setIdx (s : State) (w : Word) : State := { s with idx := w }

/-- `DT <- b` (R32). -/
def State.setDelay (s : State) (b : Byte) : State := { s with dt := b }

/-- `ST <- b` (R33). -/
def State.setSound (s : State) (b : Byte) : State := { s with st := b }

/-- `V[0] .. V[x]` in ascending order: what STORE stores (R247). -/
def State.regsUpTo (s : State) (x : Nibble) : List Byte := s.v.toList.take (x.toNat + 1)

/-- A register file with the given bytes from V0 upward; the others keep their values (R248). -/
def loadedRegs (v : Vector Byte 16) (bs : List Byte) : Vector Byte 16 :=
  Vector.ofFn fun k : Fin 16 => bs.getD k.val v[k]

/-- Load registers from V0 upward with the given bytes; the others keep their values (R248). -/
def State.loadRegs (s : State) (bs : List Byte) : State := { s with v := loadedRegs s.v bs }

/-- Put a framebuffer in place and raise `draw_pending` (R34, R140, R210). -/
def State.setScreen (s : State) (fb : Screen) : State := { s with fb := fb, drawPending := true }

/-! ### The end of a cycle: pc and status (R25, R124) -/

/-- `pc <- target`, status DONE. -/
def State.goto (s : State) (target : Word) : State := { s with pc := target, status := .done }

/-- `pc <- (pc + 2) mod 65536`, status DONE: the default (R25, R125). -/
def State.next (s : State) : State := s.goto (s.pc + 2#16)

/-- Skip: pc + 4 if the condition holds, else pc + 2; the word skipped is not examined (R126). -/
def State.skipIf (s : State) (cond : Bool) : State := s.goto (s.pc + if cond then 4#16 else 2#16)

/-- A waiting cycle: nothing changes, status WAITING (R124, R241). -/
def State.wait (s : State) : State := { s with status := .waiting }

/-! ### The call stack (R31, R36, decision D13) -/

/-- Push a return address: store at `stack[SP]`, then increment; none when 16 entries are in use (R151). -/
def State.push (s : State) (w : Word) : Option State :=
  if h : s.sp.val < 16 then
    some { s with stack := s.stack.set s.sp.val w h, sp := ⟨s.sp.val + 1, by omega⟩ }
  else none

/-- Pop: decrement, then read `stack[SP]`; the slot keeps its contents; none when the stack is empty (R141). -/
def State.pop (s : State) : Option (Word × State) :=
  if h : 0 < s.sp.val then
    some (s.stack[s.sp.val - 1]'(by omega), { s with sp := ⟨s.sp.val - 1, by omega⟩ })
  else none

/-! ### Entry to a fatal condition and to a report (R305, R312, R313) -/

/-- TAKING A FATAL CONDITION (R312): the four latches are written and the status is FATAL; nothing is saved for
the program, control goes nowhere, and pc keeps the address of the faulting instruction (R25, R128). There is no
return from it: no instruction clears `fatal_cause`, and only reset does (R315). -/
def State.takeFatal (s : State) (cause : Cause) (word : Word) (addr : Nat) : State :=
  { s with fatalCause := cause, faultPc := s.pc, faultWord := word, faultAddr := BitVec.ofNat 17 addr,
           status := .fatal }

/-- THE UNRECOGNISED-OPCODE REPORT (R305, R313): the word and its address are latched, the count goes up, pc
advances by 2, and the engine stays runnable. -/
def State.report (s : State) (word : Word) : State :=
  { s with reportWord := word, reportAddr := s.pc, reportCount := s.reportCount + 1,
           pc := s.pc + 2#16, status := .unrecognised }

/-- A fatal condition is latched: the engine is halted until reset (R127). -/
def State.halted (s : State) : Bool := s.fatalCause != .none

/-! ### Bounds (R62, R69) and fetch (R121) -/

/-- The first address above 4095 that an access starting at `a` needs: `max(a, 4096)` (R69). -/
def firstBad (a : Nat) : Nat := max a Config.memSize

/-- The bytes `a .. a + len - 1` are all memory: natural-number addresses, not wrapped, not masked (R62, R69).
An access of no bytes is always in range, whatever `a` is (decision D21). -/
def inMemory (a len : Nat) : Bool := len == 0 || decide (a + len ≤ Config.memSize)

/-- `raise Fatal(DATA_OOB, max(I, 4096))` by an instruction (R304). -/
def State.takeDataOob (s : State) (i : Instr) : State :=
  s.takeFatal .dataOob (encode i) (firstBad s.idx.toNat)

/-- The two-byte fetch at pc is in range (R69, R121). -/
def State.fetchable (s : State) : Bool := inMemory s.pc.toNat 2

/-- The word at pc, high byte first (R64, R121). -/
def State.fetchWord (s : State) : Word :=
  wordOfBytes (s.readByte s.pc.toNat) (s.readByte (s.pc.toNat + 1))

/-- `raise Fatal(FETCH_OOB, max(pc, 4096))`; there is no word (R121, R303). -/
def State.takeFetchOob (s : State) : State := s.takeFatal .fetchOob 0#16 (firstBad s.pc.toNat)

end Sys2Proof.Machine
end

