-- ==== Sys2Proof/Machine/Flags.lean ====
section
/-! DEFINITION. Results and flags of the five flag-setting ALU instructions, as functions of the start-of-cycle
values `a` and `b` only (spec/44_alu.md R180 c, spec/10_state.md R27 to R29). Each result is computed exactly and
narrowed to 8 bits at the end (R10). The collision flag of DRW is in Draw.lean. -/

namespace Sys2Proof.Machine

/-- A result and its flag. -/
structure Flagged where
  result : Byte
  flag   : Bool
  deriving DecidableEq, Repr

/-- The 9-bit sum; carry when it exceeds 255 (R185). -/
def addFlagged (a b : Byte) : Flagged :=
  { result := BitVec.ofNat 8 (a.toNat + b.toNat), flag := decide (a.toNat + b.toNat > 255) }

/-- `a - b` modulo 256; no borrow when `a >= b` (R186; R188 with the operands exchanged). -/
def subFlagged (a b : Byte) : Flagged :=
  { result := BitVec.ofInt 8 ((a.toNat : Int) - (b.toNat : Int)), flag := decide (a.toNat ≥ b.toNat) }

/-- Logical shift right by one; the bit shifted out (R187). -/
def shrFlagged (a : Byte) : Flagged :=
  { result := BitVec.ofNat 8 (a.toNat / 2), flag := a.getLsbD 0 }

/-- Shift left by one, modulo 256; the bit shifted out (R189). -/
def shlFlagged (a : Byte) : Flagged :=
  { result := BitVec.ofNat 8 (2 * a.toNat), flag := a.getLsbD 7 }

/-- Write the result to `V[x]`, then the flag to VF: the flag is last, whichever register `x` is (R28). -/
def State.setFlagged (s : State) (x : Nibble) (r : Flagged) : State := (s.setReg x r.result).setFlag r.flag

end Sys2Proof.Machine
end

