-- ==== Sys2Proof/Machine/Operands.lean ====
section
/-! DEFINITION. The operand forms: immediates, the key number, the glyph address, the decimal digits, the pixel
coordinates (spec/30_encoding.md R93, R94 and the instruction rules named). -/

namespace Sys2Proof.Machine

/-- `zext_16(nnn)` (R93): absolute, not scaled, never sign-extended. -/
def target (nnn : Addr12) : Word := nnn.setWidth 16

/-- A register as a 16-bit addend, zero-extended (R201, R244). -/
def addend (b : Byte) : Word := b.setWidth 16

/-- `KEY_INDEX_RULE`: the key a register value names is its low nibble (R230, decision D5). -/
def keyIndex (b : Byte) : Nibble := b.setWidth 4

/-- `key[k]`, as the host last wrote it (R37, R130). -/
def State.keyDown (s : State) (k : Nibble) : Bool := s.key[k.toNat]'k.isLt

/-- `KEY_SELECT_RULE`: the least key that is down, if any (R241, decision D6). -/
def State.lowestKey (s : State) : Option (Fin 16) := (List.finRange 16).find? fun k => s.key[k]

/-- `FONT_BASE + 5 * V[x]`, the whole 8-bit value, no mask (R245, decision D7). -/
def glyphAddr (b : Byte) : Word := BitVec.ofNat 16 (fontBase + 5 * b.toNat)

/-- The BCD converter: hundreds, tens, ones (R249). -/
def bcd (b : Byte) : List Byte :=
  [BitVec.ofNat 8 (b.toNat / 100), BitVec.ofNat 8 (b.toNat / 10 % 10), BitVec.ofNat 8 (b.toNat % 10)]

/-- The column of a pixel: the natural-number sum, modulo 64 (R211). -/
def wrapCol (c : Nat) : Fin 64 := ⟨c % 64, Nat.mod_lt _ (by decide)⟩

/-- The row of a pixel: the natural-number sum, modulo 32 (R211). -/
def wrapRow (r : Nat) : Fin 32 := ⟨r % 32, Nat.mod_lt _ (by decide)⟩

end Sys2Proof.Machine
end

