-- ==== Sys2Proof/Machine/Alu.lean ====
section
/-! DEFINITION. The ALU family 0x8 (spec/44_alu.md R180 to R189). Operands are read before anything is written
(R180 c); a flag is written to VF after the result (R180 d). -/

namespace Sys2Proof.Machine

/-- LD_REG (R181). -/
def execLdReg (x y : Nibble) (s : State) : Host.Outcome State Fault Refusal :=
  .next (s.setReg x (s.reg y)).next

/-- OR (R182): VF is left alone. -/
def execOr (x y : Nibble) (s : State) : Host.Outcome State Fault Refusal :=
  .next (s.setReg x (s.reg x ||| s.reg y)).next

/-- AND (R183): VF is left alone. -/
def execAnd (x y : Nibble) (s : State) : Host.Outcome State Fault Refusal :=
  .next (s.setReg x (s.reg x &&& s.reg y)).next

/-- XOR (R184): VF is left alone. -/
def execXor (x y : Nibble) (s : State) : Host.Outcome State Fault Refusal :=
  .next (s.setReg x (s.reg x ^^^ s.reg y)).next

/-- ADD_VX_VY (R185): VF = carry. -/
def execAddVxVy (x y : Nibble) (s : State) : Host.Outcome State Fault Refusal :=
  .next (s.setFlagged x (addFlagged (s.reg x) (s.reg y))).next

/-- SUB_VX_VY (R186): VF = no borrow. -/
def execSubVxVy (x y : Nibble) (s : State) : Host.Outcome State Fault Refusal :=
  .next (s.setFlagged x (subFlagged (s.reg x) (s.reg y))).next

/-- SHR (R187): `SHIFT_SOURCE` is V[x], the y field is ignored (decision D1). -/
def execShr (x _y : Nibble) (s : State) : Host.Outcome State Fault Refusal :=
  .next (s.setFlagged x (shrFlagged (s.reg x))).next

/-- SUBN (R188): V[y] - V[x]; VF = no borrow. -/
def execSubn (x y : Nibble) (s : State) : Host.Outcome State Fault Refusal :=
  .next (s.setFlagged x (subFlagged (s.reg y) (s.reg x))).next

/-- SHL (R189): `SHIFT_SOURCE` is V[x], the y field is ignored (decision D1). -/
def execShl (x _y : Nibble) (s : State) : Host.Outcome State Fault Refusal :=
  .next (s.setFlagged x (shlFlagged (s.reg x))).next

end Sys2Proof.Machine
end

