-- ==== Sys2Proof/Machine/ClearReturn.lean ====
section
/-! DEFINITION. Family 0x0: CLS and RET (spec/41_family0_clear_return.md R140, R141). -/

namespace Sys2Proof.Machine

/-- A framebuffer with every pixel 0. -/
def blankScreen : Screen := Vector.replicate 32 (Vector.replicate 64 false)

/-- CLS (R140): zero every pixel and set draw_pending, always; VF is not written. -/
def execCls (_u : Nibble) (s : State) : Host.Outcome State Fault Refusal :=
  .next (s.setScreen blankScreen).next

/-- RET (R141): STACK_UNDERFLOW when SP = 0 (R302), before any write; else pc takes the popped entry, and
nothing is added to it. -/
def execRet (u : Nibble) (s : State) : Host.Outcome State Fault Refusal :=
  match s.pop with
  | none => .next (s.takeFatal .stackUnderflow (encode (.ret u)) 0)
  | some (address, s') => .next (s'.goto address)

end Sys2Proof.Machine
end

