-- ==== Sys2Proof/Machine/Draw.lean ====
section
/-! DEFINITION. DRW and the framebuffer write controller (spec/46_draw.md R210 to R216), as the loops of R210. -/

namespace Sys2Proof.Machine

/-- `fb[r][c]` (R38). -/
def Screen.pixel (fb : Screen) (r : Fin 32) (c : Fin 64) : Bool := fb[r][c]

/-- `fb[r][c] <- fb[r][c] ^ 1` (R210). -/
def Screen.toggle (fb : Screen) (r : Fin 32) (c : Fin 64) : Screen :=
  fb.set r.val (fb[r].set c.val (!fb[r][c]))

/-- The body of the inner loop (R210, R212): a sprite bit 1 toggles its pixel and records a collision if the
pixel was set; a sprite bit 0 does nothing. The pair is the framebuffer and the collision so far. -/
def drawBit (vx vy : Byte) (row : Nat) (b : Byte) (p : Screen × Bool) (col : Nat) : Screen × Bool :=
  if b.getLsbD (7 - col) then
    let r := wrapRow (vy.toNat + row)
    let c := wrapCol (vx.toNat + col)
    (p.1.toggle r c, p.2 || p.1.pixel r c)
  else p

/-- One sprite row: columns 0 to 7, most significant bit first (R210). -/
def drawRow (vx vy : Byte) (row : Nat) (b : Byte) (p : Screen × Bool) : Screen × Bool :=
  (List.range 8).foldl (drawBit vx vy row b) p

/-- The rows of a sprite from `row` on (R210). -/
def drawRows (vx vy : Byte) : Nat → List Byte → Screen × Bool → Screen × Bool
  | _, [], p => p
  | row, b :: bs, p => drawRows vx vy (row + 1) bs (drawRow vx vy row b p)

/-- DRW (R210): DATA_OOB before any effect when the sprite leaves memory (R304; never with n = 0, R215); the
coordinates are latched before VF is written (R213); VF = collision, once, last; draw_pending is set, always. -/
def execDrw (x y n : Nibble) (s : State) : Host.Outcome State Fault Refusal :=
  if inMemory s.idx.toNat n.toNat then
    let drawn := drawRows (s.reg x) (s.reg y) 0 (s.readBytes s.idx.toNat n.toNat) (s.fb, false)
    .next ((s.setScreen drawn.1).setFlag drawn.2).next
  else .next (s.takeDataOob (.drw x y n))

end Sys2Proof.Machine
end

