-- ==== Sys2Proof/Machine/Immediate.lean ====
section
/-! DEFINITION. Load immediate and add immediate (spec/43_immediate.md R170, R171). -/

namespace Sys2Proof.Machine

/-- LD_IMM (R170). -/
def execLdImm (x : Nibble) (nn : Byte) (s : State) : Host.Outcome State Fault Refusal :=
  .next (s.setReg x nn).next

/-- ADD_IMM (R171): modulo 256; VF is not affected by this form. -/
def execAddImm (x : Nibble) (nn : Byte) (s : State) : Host.Outcome State Fault Refusal :=
  .next (s.setReg x (BitVec.ofNat 8 ((s.reg x).toNat + nn.toNat))).next

end Sys2Proof.Machine
end

