-- ==== Sys2Proof/Machine/IndexRandom.lean ====
section
/-! DEFINITION. Set index, jump with offset, random (spec/45_index_offset_random.md R200 to R202). -/

namespace Sys2Proof.Machine

/-- LD_I (R200). -/
def execLdI (nnn : Addr12) (s : State) : Host.Outcome State Fault Refusal :=
  .next (s.setIdx (target nnn)).next

/-- JP_V0 (R201): the offset register is always V0; the sum is not masked to 12 bits. -/
def execJpV0 (nnn : Addr12) (s : State) : Host.Outcome State Fault Refusal :=
  .next (s.goto (target nnn + addend (s.reg 0x0#4)))

/-- The random input of this cycle (R202, R280), and the state in which the next one is a fresh value
(log entry 1). -/
def State.drawRandom (s : State) : Byte × State :=
  (Config.rnd s.rndIndex, { s with rndIndex := s.rndIndex + 1 })

/-- RND (R202): the random byte ANDed with nn; the old V[x] plays no part. -/
def execRnd (x : Nibble) (nn : Byte) (s : State) : Host.Outcome State Fault Refusal :=
  .next (s.drawRandom.2.setReg x (s.drawRandom.1 &&& nn)).next

end Sys2Proof.Machine
end

