-- ==== Sys2Proof/Machine/JumpCallSkip.lean ====
section
/-! DEFINITION. JP, CALL and the four register skips (spec/42_jump_call_skip.md R150 to R155). -/

namespace Sys2Proof.Machine

/-- JP (R150): the target is not checked. -/
def execJp (nnn : Addr12) (s : State) : Host.Outcome State Fault Refusal :=
  .next (s.goto (target nnn))

/-- CALL (R151): STACK_OVERFLOW when SP = 16 (R301), before any write; else push pc + 2 and jump. -/
def execCall (nnn : Addr12) (s : State) : Host.Outcome State Fault Refusal :=
  match s.push (s.pc + 2#16) with
  | none => .next (s.takeFatal .stackOverflow (encode (.call nnn)) 0)
  | some s' => .next (s'.goto (target nnn))

/-- SE_IMM (R152). -/
def execSeImm (x : Nibble) (nn : Byte) (s : State) : Host.Outcome State Fault Refusal :=
  .next (s.skipIf (s.reg x == nn))

/-- SNE_IMM (R153). -/
def execSneImm (x : Nibble) (nn : Byte) (s : State) : Host.Outcome State Fault Refusal :=
  .next (s.skipIf (s.reg x != nn))

/-- SE_REG (R154): the low nibble has no effect. -/
def execSeReg (x y _u : Nibble) (s : State) : Host.Outcome State Fault Refusal :=
  .next (s.skipIf (s.reg x == s.reg y))

/-- SNE_REG (R155): the low nibble has no effect. -/
def execSneReg (x y _u : Nibble) (s : State) : Host.Outcome State Fault Refusal :=
  .next (s.skipIf (s.reg x != s.reg y))

end Sys2Proof.Machine
end

