-- ==== Sys2Proof/Machine/Keypad.lean ====
section
/-! DEFINITION. The keypad skips, family 0xE (spec/47_keypad_skips.md R230, R231). -/

namespace Sys2Proof.Machine

/-- SKP (R230): the level of the key named by V[x] modulo 16. -/
def execSkp (x : Nibble) (s : State) : Host.Outcome State Fault Refusal :=
  .next (s.skipIf (s.keyDown (keyIndex (s.reg x))))

/-- SKNP (R231): the complement of SKP. -/
def execSknp (x : Nibble) (s : State) : Host.Outcome State Fault Refusal :=
  .next (s.skipIf (!s.keyDown (keyIndex (s.reg x))))

end Sys2Proof.Machine
end

