-- ==== Sys2Proof/Machine/Misc.lean ====
section
/-! DEFINITION. The Misc family 0xF (spec/48_misc_f.md R240 to R249). -/

namespace Sys2Proof.Machine

/-- LD_DT (R240). -/
def execLdDt (x : Nibble) (s : State) : Host.Outcome State Fault Refusal :=
  .next (s.setReg x s.dt).next

/-- LD_KEY (R241): with no key down nothing changes and the status is WAITING; else V[x] takes the least key
that is down (decision D6). The keypad is not written. -/
def execLdKey (x : Nibble) (s : State) : Host.Outcome State Fault Refusal :=
  match s.lowestKey with
  | none => .next s.wait
  | some k => .next (s.setReg x (BitVec.ofNat 8 k.val)).next

/-- SET_DT (R242). -/
def execSetDt (x : Nibble) (s : State) : Host.Outcome State Fault Refusal :=
  .next (s.setDelay (s.reg x)).next

/-- SET_ST (R243). -/
def execSetSt (x : Nibble) (s : State) : Host.Outcome State Fault Refusal :=
  .next (s.setSound (s.reg x)).next

/-- ADD_I (R244): modulo 65536; VF is unaffected. -/
def execAddI (x : Nibble) (s : State) : Host.Outcome State Fault Refusal :=
  .next (s.setIdx (s.idx + addend (s.reg x))).next

/-- LD_FONT (R245). -/
def execLdFont (x : Nibble) (s : State) : Host.Outcome State Fault Refusal :=
  .next (s.setIdx (glyphAddr (s.reg x))).next

/-- LD_BCD (R246): DATA_OOB before any write (R304). -/
def execLdBcd (x : Nibble) (s : State) : Host.Outcome State Fault Refusal :=
  if inMemory s.idx.toNat 3 then .next (s.writeBytes s.idx.toNat (bcd (s.reg x))).next
  else .next (s.takeDataOob (.ldBcd x))

/-- STORE (R247): V[0] to V[x], DATA_OOB before any write (R304); I is unchanged. -/
def execStore (x : Nibble) (s : State) : Host.Outcome State Fault Refusal :=
  if inMemory s.idx.toNat (x.toNat + 1) then .next (s.writeBytes s.idx.toNat (s.regsUpTo x)).next
  else .next (s.takeDataOob (.store x))

/-- LOAD (R248): V[0] to V[x], DATA_OOB before any register write (R304); I is unchanged. -/
def execLoad (x : Nibble) (s : State) : Host.Outcome State Fault Refusal :=
  if inMemory s.idx.toNat (x.toNat + 1) then
    .next (s.loadRegs (s.readBytes s.idx.toNat (x.toNat + 1))).next
  else .next (s.takeDataOob (.load x))

end Sys2Proof.Machine
end

