-- ==== Sys2Proof/Machine/HostOps.lean ====
section
/-! DEFINITION. What the host does to the block between two cycles (spec/49_host_operations.md R272 to R279,
spec/60_exceptions.md R319, spec/70_reset_and_hazards.md R340). The Step is in Machine/Cycle.lean. -/

namespace Sys2Proof.Machine

/-- A timer counts down by exactly 1 and stays at 0 (R319). -/
def countDown (b : Byte) : Byte := if b = 0#8 then 0#8 else b - 1#8

/-- Tick (R272, R319): both timers, whether or not the engine is halted (decision D20); nothing else. -/
def State.tick (s : State) : State := { s with dt := countDown s.dt, st := countDown s.st }

/-- Reset (R274, R340, R343): every piece of state at its reset value, at any time. What the host will do next
and the index of the next random byte are the model's own and go on (log entry 2). -/
def State.applyReset (s : State) : State :=
  { State.reset with pending := s.pending, rndIndex := s.rndIndex }

/-- The program region with an image in it: zero-filled, then the image from 0x200 (R72, R275). -/
def romBytes (image : List Byte) : List Byte :=
  image ++ List.replicate (Config.romMax - image.length) 0#8

/-- ROM load (R275): the program region is zero-filled and the image written from 0x200; nothing else changes.
An oversized image is a load failure, after which execution must not start (R275, R306); a load after the first
Step, or a second load since reset, is outside the contract (decision D24, U22). -/
def State.romLoad (s : State) (image : List Byte) : Host.Outcome State Fault Refusal :=
  if !s.loadOpen then .refused .romLoadOutOfTurn
  else if image.length > Config.romMax then .fault .romLoadFailed
  else .next { s.writeBytes Config.programBase (romBytes image) with loadOpen := false }

/-- Key write (R276). -/
def State.keyWrite (s : State) (k : Nibble) (down : Bool) : State :=
  { s with key := s.key.set k.toNat down k.isLt }

/-- Frame acknowledge (R277). -/
def State.frameAck (s : State) : State := { s with drawPending := false }

/-- Framebuffer read (R278): port `fb_bit` for `fb_row` and `fb_col`; it has no effect on state. -/
def State.frameBit (s : State) (r : Fin 32) (c : Fin 64) : Bool := s.fb.pixel r c

end Sys2Proof.Machine
end

