-- ==== Sys2Proof/Machine/Cycle.lean ====
section
/-! DEFINITION. One cycle of the engine (spec/40_cycle.md R120 to R129), and one operation of the host. -/

namespace Sys2Proof.Machine

/-- A Step has been requested: the time for a ROM load is over (R275, decision D24). -/
def State.closeLoad (s : State) : State := { s with loadOpen := false }

/-- A Step of a halted engine: nothing changes, status FATAL again (R127). -/
def State.stayHalted (s : State) : State := { s with status := .fatal }

/-- The whole Step operation (R129), its tests in the order of R310: the latched fatal condition, the fetch
bounds, the decode, the instruction's own test. -/
def cycle (s : State) : Host.Outcome State Fault Refusal :=
  if s.halted then .next s.stayHalted
  else if s.fetchable then
    match decodeWord s.fetchWord with
    | .ok i => exec i s
    | .error _ => .next (s.report s.fetchWord)
  else .next s.takeFetchOob

/-- One operation of the host (R270 to R279), atomic. -/
def perform (op : HostOp) (s : State) : Host.Outcome State Fault Refusal :=
  match op with
  | .step => cycle s.closeLoad
  | .tick => .next s.tick
  | .reset => .next s.applyReset
  | .romLoad image => s.romLoad image
  | .keyWrite k down => .next (s.keyWrite k down)
  | .frameAck => .next s.frameAck
  | .frameRead => .next s
  | .stateRead => .next s

/-- The host's next operation, and the state without it; with nothing pending the host asks for a Step. -/
def State.takeOp (s : State) : HostOp × State :=
  match s.pending with
  | [] => (.step, s)
  | op :: rest => (op, { s with pending := rest })

/-- Store a word at pc, high byte first (R64). -/
def State.placeWord (s : State) (w : Word) : State := s.writeBytes s.pc.toNat (bytesOfWord w)

/-- A state in which the very next step is a Step that fetches: nothing pending, not halted, pc in range. -/
def State.readyToFetch (s : State) : State :=
  { s with pending := [], fatalCause := .none, pc := if s.fetchable then s.pc else 0x200#16 }

end Sys2Proof.Machine
end

