-- ==== Sys2Proof/Machine/Step.lean ====
section
/-! DEFINITION. One step of the machine: one operation of the host, a Step unless the host's list says otherwise
(spec/49_host_operations.md R270, R273; log entry 3). -/

namespace Sys2Proof.Machine

/-- One step: the host's next operation is performed. -/
def step (s : State) : Host.Outcome State Fault Refusal := perform s.takeOp.1 s.takeOp.2

/-- `s` with an instruction of the opcode table stored where step fetches its next one. It stands for the ROM
load that puts a program in memory (log entry 4). -/
def State.withFetchWord (s : State) (nbits w : Nat) : State := s.readyToFetch.placeWord (tableWord nbits w)

end Sys2Proof.Machine
end

