-- ==== Sys2Proof/Safety.lean ====
section
/-! DEFINITION. The terms claims are made in: what stays the same, which registers an instruction may write, the
sprite's pixels, what only the host can see, and the invariant of the machine. -/

namespace Sys2Proof.Machine

/-! ### What is unchanged between two states -/

/-- Every general register but those named reads as before. -/
def SameRegsBut (written : List Nibble) (s t : State) : Prop := ∀ r, r ∉ written → t.reg r = s.reg r

/-- Every byte of main memory reads as before. -/
def SameMemory (s t : State) : Prop := ∀ a, t.readByte a = s.readByte a

/-- The stack pointer and every stack slot. -/
def SameStack (s t : State) : Prop := t.sp = s.sp ∧ t.stack = s.stack

/-- Both timers. -/
def SameTimers (s t : State) : Prop := t.dt = s.dt ∧ t.st = s.st

/-- The framebuffer and the draw-pending flag. -/
def SameScreen (s t : State) : Prop := t.fb = s.fb ∧ t.drawPending = s.drawPending

/-- The four fatal latches and the three report latches (R35). -/
def SameLatches (s t : State) : Prop :=
  t.fatalCause = s.fatalCause ∧ t.faultPc = s.faultPc ∧ t.faultWord = s.faultWord ∧ t.faultAddr = s.faultAddr ∧
  t.reportWord = s.reportWord ∧ t.reportAddr = s.reportAddr ∧ t.reportCount = s.reportCount

/-- The keypad, and the model's own record of the host's side. -/
def SameHost (s t : State) : Prop :=
  t.key = s.key ∧ t.rndIndex = s.rndIndex ∧ t.loadOpen = s.loadOpen ∧ t.pending = s.pending

/-- Nothing but pc, status and the general registers named. -/
def OnlyRegs (written : List Nibble) (s t : State) : Prop :=
  SameRegsBut written s t ∧ t.idx = s.idx ∧ SameMemory s t ∧ SameStack s t ∧ SameTimers s t ∧ SameScreen s t ∧
  SameLatches s t ∧ SameHost s t

/-- The instruction completed and pc is past it: `(pc + 2) mod 65536`, status DONE (R25, R124). -/
def Advanced (s t : State) : Prop := t.pc.toNat = (s.pc.toNat + 2) % 65536 ∧ t.status = .done

/-- The instruction completed as a skip: past the next word too if the condition holds (R126). -/
def Skipped (cond : Prop) (s t : State) : Prop :=
  (cond → t.pc.toNat = (s.pc.toNat + 4) % 65536) ∧ (¬cond → t.pc.toNat = (s.pc.toNat + 2) % 65536) ∧
  t.status = .done

/-- A fatal condition was taken: the four latches and the status, and nothing else (R128, R312). -/
def TookFatal (cause : Cause) (word : Word) (addr : Nat) (s t : State) : Prop :=
  t.fatalCause = cause ∧ t.faultPc = s.pc ∧ t.faultWord = word ∧ t.faultAddr.toNat = addr ∧ t.status = .fatal ∧
  t.pc = s.pc ∧ t.v = s.v ∧ t.idx = s.idx ∧ t.mem = s.mem ∧ SameStack s t ∧ SameTimers s t ∧ SameScreen s t ∧
  t.reportWord = s.reportWord ∧ t.reportAddr = s.reportAddr ∧ t.reportCount = s.reportCount ∧ SameHost s t

/-- The next step is a Step that executes the instruction `i`: not halted, fetched from memory, decoded (R129). -/
def State.Runs (s : State) (i : Instr) : Prop :=
  s.takeOp.1 = .step ∧ s.fatalCause = .none ∧ s.pc.toNat ≤ 4094 ∧ decodeWord s.fetchWord = .ok i

/-- The words `w` with `w & mask = val` are exactly those the decoder reads as `mk w` (R96). -/
def EncodedAs (mask val : Word) (mk : Word → Instr) : Prop :=
  ∀ w, w &&& mask = val ↔ decodeWord w = .ok (mk w)

end Sys2Proof.Machine

namespace Sys2Proof

/-! ### Which general registers an instruction may write (the table of R22) -/

/-- The registers `V[0] .. V[x]`. -/
def upTo (x : Nibble) : List Nibble := (List.range (x.toNat + 1)).map (BitVec.ofNat 4)

/-- The "writes" column of R22. -/
def Instr.writes : Instr → List Nibble
  | .cls _ => []
  | .ret _ => []
  | .jp _ => []
  | .call _ => []
  | .seImm _ _ => []
  | .sneImm _ _ => []
  | .seReg _ _ _ => []
  | .ldImm x _ => [x]
  | .addImm x _ => [x]
  | .ldReg x _ => [x]
  | .or x _ => [x]
  | .and x _ => [x]
  | .xor x _ => [x]
  | .addVxVy x _ => [x, 0xF#4]
  | .subVxVy x _ => [x, 0xF#4]
  | .shr x _ => [x, 0xF#4]
  | .subn x _ => [x, 0xF#4]
  | .shl x _ => [x, 0xF#4]
  | .sneReg _ _ _ => []
  | .ldI _ => []
  | .jpV0 _ => []
  | .rnd x _ => [x]
  | .drw _ _ _ => [0xF#4]
  | .skp _ => []
  | .sknp _ => []
  | .ldDt x => [x]
  | .ldKey x => [x]
  | .setDt _ => []
  | .setSt _ => []
  | .addI _ => []
  | .ldFont _ => []
  | .ldBcd _ => []
  | .store _ => []
  | .load x => upTo x

/-- The condition under which an instruction raises a fatal condition, and which (R301 to R304, R308). -/
def Instr.raises (i : Instr) (s : Machine.State) : Option Machine.Cause :=
  match i with
  | .cls _ => none
  | .ret _ => if s.sp.val = 0 then some .stackUnderflow else none
  | .jp _ => none
  | .call _ => if s.sp.val = 16 then some .stackOverflow else none
  | .seImm _ _ => none
  | .sneImm _ _ => none
  | .seReg _ _ _ => none
  | .ldImm _ _ => none
  | .addImm _ _ => none
  | .ldReg _ _ => none
  | .or _ _ => none
  | .and _ _ => none
  | .xor _ _ => none
  | .addVxVy _ _ => none
  | .subVxVy _ _ => none
  | .shr _ _ => none
  | .subn _ _ => none
  | .shl _ _ => none
  | .sneReg _ _ _ => none
  | .ldI _ => none
  | .jpV0 _ => none
  | .rnd _ _ => none
  | .drw _ _ n => if 1 ≤ n.toNat ∧ s.idx.toNat + n.toNat - 1 > 4095 then some .dataOob else none
  | .skp _ => none
  | .sknp _ => none
  | .ldDt _ => none
  | .ldKey _ => none
  | .setDt _ => none
  | .setSt _ => none
  | .addI _ => none
  | .ldFont _ => none
  | .ldBcd _ => if s.idx.toNat + 2 > 4095 then some .dataOob else none
  | .store x => if s.idx.toNat + x.toNat > 4095 then some .dataOob else none
  | .load x => if s.idx.toNat + x.toNat > 4095 then some .dataOob else none

end Sys2Proof

namespace Sys2Proof.Machine

/-! ### The sprite's pixels (R210 to R212), said pixel by pixel instead of by loops -/

/-- Row `r`, column `c` lies under a sprite bit 1: the sprite's left edge is column `vx mod 64`, its top row
`vy mod 32`, both wrapping. (256 is a multiple of 64 and of 32, and exceeds every 8-bit value.) -/
def State.spriteBit (s : State) (vx vy : Byte) (n : Nibble) (r : Fin 32) (c : Fin 64) : Bool :=
  let dr := (r.val + 256 - vy.toNat) % 32
  let dc := (c.val + 256 - vx.toNat) % 64
  decide (dr < n.toNat) && decide (dc < 8) && (s.readByte (s.idx.toNat + dr)).getLsbD (7 - dc)

/-! ### What no instruction reads (R33, R34, R35, R277) -/

/-- A state with everything hidden that the engine only shows to the host: draw_pending, ST, the report latches
and the status. -/
def State.hideOutputs (s : State) : State :=
  { s with drawPending := false, st := 0#8, reportWord := 0#16, reportAddr := 0#16, reportCount := 0,
           status := .done }

/-- An outcome with its outputs hidden. -/
def hideOutcome : Host.Outcome State Fault Refusal → Host.Outcome State Fault Refusal
  | .next s => .next s.hideOutputs
  | .fault r => .fault r
  | .refused r => .refused r

/-! ### The invariant -/

/-- The fatal latches describe the one fatal condition there has been, or nothing (R35, R301 to R304, R315). -/
def State.LatchesTell (s : State) : Prop :=
  match s.fatalCause with
  | .none => s.faultPc = 0#16 ∧ s.faultWord = 0#16 ∧ s.faultAddr = 0#17
  | .stackOverflow => s.faultPc = s.pc ∧ s.sp.val = 16 ∧ s.faultAddr = 0#17 ∧
      ∃ nnn, decodeWord s.faultWord = .ok (.call nnn)
  | .stackUnderflow => s.faultPc = s.pc ∧ s.sp.val = 0 ∧ s.faultAddr = 0#17 ∧
      ∃ u, decodeWord s.faultWord = .ok (.ret u)
  | .fetchOob => s.faultPc = s.pc ∧ 4095 ≤ s.pc.toNat ∧ s.faultWord = 0#16 ∧
      s.faultAddr.toNat = max s.pc.toNat 4096
  | .dataOob => s.faultPc = s.pc ∧ s.faultAddr.toNat = max s.idx.toNat 4096 ∧
      ∃ i, decodeWord s.faultWord = .ok i ∧ i.raises s = some .dataOob

/-- The report latches hold the last unrecognised word and an address it could be fetched from, or nothing. -/
def State.ReportTells (s : State) : Prop :=
  (s.reportCount = 0 ∧ s.reportWord = 0#16 ∧ s.reportAddr = 0#16) ∨
  (0 < s.reportCount ∧ (∃ r, decodeWord s.reportWord = .error r) ∧ s.reportAddr.toNat ≤ 4094)

/-- What holds in every state the machine can be in: memory is in canonical form; pc is never above 0x10FE (R26);
every return address in use is one a CALL pushed, 2 to 4096 (R141); the status is FATAL exactly when a fatal
condition is latched (R127); the latches tell which. -/
structure State.Inv (s : State) : Prop where
  memory : Memory.wf s.mem = true
  pcBound : s.pc.toNat ≤ 0x10FE
  returns : ∀ k : Fin 16, k.val < s.sp.val → 2 ≤ s.stack[k].toNat ∧ s.stack[k].toNat ≤ 4096
  status : s.status = .fatal ↔ s.halted = true
  latches : s.LatchesTell
  report : s.ReportTells

end Sys2Proof.Machine
end

