-- ==== Sys2Proof/Certificates/Slice0/Obligations.lean ====
section
/-! DEFINITION. The statements for the provers. Each docstring says which rule of spec/ it formalises. A clause
that rests on an opcode number the spec has from general knowledge (R100, log entry 10), on one of the spec's own
decisions D<n> (log entry 9) or on a choice of the model (its log entry) says so. -/

open Sys2Proof Sys2Proof.Machine

/-! ### Decoding and encoding -/

/-- R90 to R97: decoding the word of an instruction gives it back, with every operand at every value. -/
def Obligations.DecodeOfEncodeIsTheInstruction : Prop := ∀ i : Instr, decodeWord (encode i) = .ok i

/-- No bit of a word is dropped: an instruction decoded from a word encodes to that word. That the bits R98 says are
ignored are kept in the instruction, so that they come back, is the model's choice (log entry 8); no rule says it. -/
def Obligations.EncodeOfDecodeIsTheWord : Prop := ∀ (w : Word) (i : Instr), decodeWord w = .ok i → encode i = w

/-- R96: the two-level decoder agrees with the table of masks and matches: a word decodes to an instruction
exactly if it matches some row, to an instruction of that row, and it matches no second row. -/
def Obligations.DecoderAgreesWithTheTable : Prop :=
  (∀ (w : Word) (i : Instr), decodeWord w = .ok i → w &&& i.row.1 = i.row.2) ∧
  (∀ (w : Word) (j : Instr), w &&& j.row.1 = j.row.2 → ∃ i, decodeWord w = .ok i ∧ i.row = j.row)

/-- R101, R102: the unrecognised words, family by family; every word of the other families is an instruction. -/
def Obligations.UnrecognisedWordsAreThose : Prop :=
  ∀ w : Word, (∃ r, decodeWord w = .error r) ↔
    (family w = 0x0#4 ∧ fieldNN w ∉ [0xE0#8, 0xEE#8]) ∨
    (family w = 0x8#4 ∧ fieldN w ∉ [0x0#4, 0x1#4, 0x2#4, 0x3#4, 0x4#4, 0x5#4, 0x6#4, 0x7#4, 0xE#4]) ∨
    (family w = 0xE#4 ∧ fieldNN w ∉ [0x9E#8, 0xA1#8]) ∨
    (family w = 0xF#4 ∧ fieldNN w ∉ [0x07#8, 0x0A#8, 0x15#8, 0x18#8, 0x1E#8, 0x29#8, 0x33#8, 0x55#8, 0x65#8])

/-- Words written out from the encodings of R96, one of each of the sixteen families, decode to the instructions they
stand for: a sanity statement (spec/95_test_vectors.md E1 to E17, S10; numbers from general knowledge, log entry 10). -/
def Obligations.WordsOfEveryFamilyDecode : Prop :=
  decodeWord 0x00E0#16 = .ok (.cls 0) ∧ decodeWord 0x1ABC#16 = .ok (.jp 0xABC) ∧
  decodeWord 0x2345#16 = .ok (.call 0x345) ∧ decodeWord 0x3A42#16 = .ok (.seImm 0xA 0x42) ∧
  decodeWord 0x4A42#16 = .ok (.sneImm 0xA 0x42) ∧ decodeWord 0x5120#16 = .ok (.seReg 1 2 0) ∧
  decodeWord 0x6005#16 = .ok (.ldImm 0 5) ∧ decodeWord 0x7005#16 = .ok (.addImm 0 5) ∧
  decodeWord 0x8125#16 = .ok (.subVxVy 1 2) ∧ decodeWord 0x9120#16 = .ok (.sneReg 1 2 0) ∧
  decodeWord 0xA21A#16 = .ok (.ldI 0x21A) ∧ decodeWord 0xB300#16 = .ok (.jpV0 0x300) ∧
  decodeWord 0xC10F#16 = .ok (.rnd 1 0x0F) ∧ decodeWord 0xD342#16 = .ok (.drw 3 4 2) ∧
  decodeWord 0xE1A1#16 = .ok (.sknp 1) ∧ decodeWord 0xF155#16 = .ok (.store 1)

/-! ### Registers and memory -/

/-- R20: a register holds what was last written to it, VF among them: none is hardwired, none is another, and none is
a byte of memory. -/
def Obligations.RegistersHoldWhatWasLastWritten : Prop :=
  ∀ (s : State) (x y : Nibble) (b : Byte) (a : Nat) (bs : List Byte),
    (s.setReg x b).reg y = (if y = x then b else s.reg y) ∧
    (∀ a', (s.setReg x b).readByte a' = s.readByte a') ∧ (s.writeBytes a bs).reg y = s.reg y

/-- R60: a write changes one byte and nothing else, and writing the value a byte already holds changes nothing (in
the canonical form every step keeps). -/
def Obligations.MemoryWritesChangeOneByte : Prop :=
  ∀ (s : State) (a : Nat) (b : Byte), a < 4096 →
    (s.writeBytes a [b]).readByte a = b ∧ (∀ a', a' ≠ a → (s.writeBytes a [b]).readByte a' = s.readByte a') ∧
    { s.writeBytes a [b] with mem := s.mem } = s ∧
    (Memory.wf s.mem = true → s.writeBytes a [s.readByte a] = s)

/-- R249: the BCD converter. -/
def Obligations.BcdGivesTheDecimalDigits : Prop :=
  ∀ v : Byte, ∃ h t o : Byte, bcd v = [h, t, o] ∧ v.toNat = 100 * h.toNat + 10 * t.toNat + o.toNat ∧
    h.toNat ≤ 2 ∧ t.toNat ≤ 9 ∧ o.toNat ≤ 9

/-! ### One step -/

/-- R120 to R123, R129: when the host's next operation is a Step, no fatal condition is latched, the two bytes at
pc are memory and decode to an instruction, the step is exec of it. What the step adds around exec: the operation
is taken off the host's list, and the time for a ROM load is over (log entries 3 and 5). -/
def Obligations.StepRunsTheDecodedInstruction : Prop :=
  ∀ (s : State) (i : Instr), s.takeOp.1 = .step → s.fatalCause = .none → s.pc.toNat ≤ 4094 →
    decodeWord (BitVec.ofNat 16 ((s.readByte s.pc.toNat).toNat * 256 + (s.readByte (s.pc.toNat + 1)).toNat)) = .ok i →
    step s = exec i s.takeOp.2.closeLoad

/-- R305 (the form of the report is the spec's decision D22): a word that is no instruction is reported with its
address, pc goes on by 2, nothing else changes, and the engine is not halted. -/
def Obligations.UnrecognisedWordIsReportedAndSkipped : Prop :=
  ∀ s : State, s.fatalCause = .none → s.pc.toNat ≤ 4094 → (∃ r, decodeWord s.fetchWord = .error r) →
    ∃ t, cycle s = .next t ∧ t.reportWord = s.fetchWord ∧ t.reportAddr = s.pc ∧
      t.reportCount = s.reportCount + 1 ∧ t.pc.toNat = (s.pc.toNat + 2) % 65536 ∧ t.status = .unrecognised ∧
      SameRegsBut [] s t ∧ t.idx = s.idx ∧ SameMemory s t ∧ SameStack s t ∧ SameTimers s t ∧ SameScreen s t ∧
      t.fatalCause = .none ∧ t.faultPc = s.faultPc ∧ t.faultWord = s.faultWord ∧ t.faultAddr = s.faultAddr ∧
      SameHost s t

/-- R121, R303 (the latches are the spec's decision D15): a fetch that needs an address above 4095 takes FETCH_OOB
before anything is read; there is no word, and fault_addr is the first address that is not memory. -/
def Obligations.FetchOutsideMemoryIsFatal : Prop :=
  ∀ s : State, s.fatalCause = .none → s.pc.toNat + 1 > 4095 →
    ∃ t, cycle s = .next t ∧ TookFatal .fetchOob 0#16 (max s.pc.toNat 4096) s t

/-- R127, R315 (the spec's decision D14): while a fatal condition is latched every Step changes nothing and answers
FATAL, and no operation of the host but reset leaves the halted state. -/
def Obligations.HaltedUntilReset : Prop :=
  ∀ s : State, s.fatalCause ≠ .none →
    (∃ t, cycle s = .next t ∧ t.status = .fatal ∧ { t with status := s.status } = s) ∧
    (∀ (op : HostOp) (t : State), perform op s = .next t → t.fatalCause = s.fatalCause ∨ op = .reset) ∧
    (∃ t, perform .reset s = .next t ∧ t.fatalCause = .none)

/-- R120, R132, R308, R317: a cycle always ends with a next state: no instruction of any form stops the machine, and
the engine has no fault or refusal of its own. -/
def Obligations.EveryCycleEndsInANextState : Prop :=
  (∀ (i : Instr) (s : State), ∃ t, exec i s = .next t) ∧ (∀ s : State, ∃ t, cycle s = .next t)

/-! ### Family 0x0, jumps, calls and skips -/

/-- R140 (the low byte E0 is the source's; that bits 11:8 are ignored is the spec's decision D11): CLS. -/
def Obligations.ClsClearsEveryPixel : Prop :=
  EncodedAs 0xF0FF#16 0x00E0#16 (fun w => .cls (fieldX w)) ∧
  ∀ (u : Nibble) (s : State), ∃ t, exec (.cls u) s = .next t ∧
    (∀ r c, t.fb.pixel r c = false) ∧ t.drawPending = true ∧ Advanced s t ∧
    SameRegsBut [] s t ∧ t.idx = s.idx ∧ SameMemory s t ∧ SameStack s t ∧ SameTimers s t ∧ SameLatches s t ∧
    SameHost s t

/-- R141 (the low byte EE is from general knowledge; the stack layout is the spec's decision D13): RET takes the newest
entry as pc and adds nothing to it; the slot keeps its contents. With SP = 0 it is STACK_UNDERFLOW (R302). -/
def Obligations.RetPopsOrUnderflows : Prop :=
  EncodedAs 0xF0FF#16 0x00EE#16 (fun w => .ret (fieldX w)) ∧
  (∀ (u : Nibble) (s : State) (h : 0 < s.sp.val), ∃ t, exec (.ret u) s = .next t ∧
    t.pc = s.stack[s.sp.val - 1] ∧ t.sp.val = s.sp.val - 1 ∧ t.stack = s.stack ∧ t.status = .done ∧
    SameRegsBut [] s t ∧ t.idx = s.idx ∧ SameMemory s t ∧ SameTimers s t ∧ SameScreen s t ∧ SameLatches s t ∧
    SameHost s t) ∧
  (∀ (u : Nibble) (s : State), s.sp.val = 0 → ∃ t, exec (.ret u) s = .next t ∧
    TookFatal .stackUnderflow (encode (.ret u)) 0 s t)

/-- R150 (the family number 1 is from general knowledge): JP. The target is not checked at the jump; only 0xFFF
cannot be fetched from; a jump to itself changes no state. -/
def Obligations.JpSetsPc : Prop :=
  EncodedAs 0xF000#16 0x1000#16 (fun w => .jp (fieldNNN w)) ∧
  ∀ (nnn : Addr12) (s : State), ∃ t, exec (.jp nnn) s = .next t ∧ t.pc.toNat = nnn.toNat ∧ t.status = .done ∧
    OnlyRegs [] s t ∧ (t.fetchable = false ↔ nnn = 0xFFF#12) ∧
    (s.pc.toNat = nnn.toNat → { t with status := s.status } = s)

/-- R151 (the spec's decision D13 fixes store-then-increment): CALL pushes pc + 2 and jumps; every other stack slot
keeps its contents. With SP = 16 it is STACK_OVERFLOW (R301). -/
def Obligations.CallPushesOrOverflows : Prop :=
  EncodedAs 0xF000#16 0x2000#16 (fun w => .call (fieldNNN w)) ∧
  (∀ (nnn : Addr12) (s : State) (h : s.sp.val < 16), ∃ t, exec (.call nnn) s = .next t ∧
    t.stack[s.sp.val].toNat = (s.pc.toNat + 2) % 65536 ∧ t.sp.val = s.sp.val + 1 ∧
    (∀ k : Fin 16, k.val ≠ s.sp.val → t.stack[k] = s.stack[k]) ∧ t.pc.toNat = nnn.toNat ∧ t.status = .done ∧
    SameRegsBut [] s t ∧ t.idx = s.idx ∧ SameMemory s t ∧ SameTimers s t ∧ SameScreen s t ∧ SameLatches s t ∧
    SameHost s t) ∧
  (∀ (nnn : Addr12) (s : State), s.sp.val = 16 → ∃ t, exec (.call nnn) s = .next t ∧
    TookFatal .stackOverflow (encode (.call nnn)) 0 s t)

/-- spec/41 after R141, S5: CALL followed by RET restores pc to the instruction after the CALL and leaves SP, the
registers and memory as they were. -/
def Obligations.CallThenRetReturns : Prop :=
  ∀ (nnn : Addr12) (u : Nibble) (s : State), s.sp.val < 16 →
    ∃ t t', exec (.call nnn) s = .next t ∧ exec (.ret u) t = .next t' ∧
      t'.pc.toNat = (s.pc.toNat + 2) % 65536 ∧ t'.sp = s.sp ∧
      (∀ k : Fin 16, k.val ≠ s.sp.val → t'.stack[k] = s.stack[k]) ∧
      SameRegsBut [] s t' ∧ t'.idx = s.idx ∧ SameMemory s t' ∧ SameTimers s t' ∧ SameScreen s t' ∧
      SameLatches s t'

/-- R152, R153 (the family numbers 3 and 4 are from general knowledge): SE_IMM and SNE_IMM, each the complement of
the other. -/
def Obligations.ImmediateSkips : Prop :=
  EncodedAs 0xF000#16 0x3000#16 (fun w => .seImm (fieldX w) (fieldNN w)) ∧
  EncodedAs 0xF000#16 0x4000#16 (fun w => .sneImm (fieldX w) (fieldNN w)) ∧
  ∀ (x : Nibble) (nn : Byte) (s : State),
    (∃ t, exec (.seImm x nn) s = .next t ∧ Skipped (s.reg x = nn) s t ∧ OnlyRegs [] s t) ∧
    (∃ t, exec (.sneImm x nn) s = .next t ∧ Skipped (s.reg x ≠ nn) s t ∧ OnlyRegs [] s t)

/-- R154, R155 (the family numbers 5 and 9 are from general knowledge; that the low nibble is ignored is the spec's
decision D11): SE_REG and SNE_REG; with x = y the one always skips and the other never. -/
def Obligations.RegisterSkips : Prop :=
  EncodedAs 0xF000#16 0x5000#16 (fun w => .seReg (fieldX w) (fieldY w) (fieldN w)) ∧
  EncodedAs 0xF000#16 0x9000#16 (fun w => .sneReg (fieldX w) (fieldY w) (fieldN w)) ∧
  ∀ (x y u : Nibble) (s : State),
    (∃ t, exec (.seReg x y u) s = .next t ∧ Skipped (s.reg x = s.reg y) s t ∧ OnlyRegs [] s t) ∧
    (∃ t, exec (.sneReg x y u) s = .next t ∧ Skipped (s.reg x ≠ s.reg y) s t ∧ OnlyRegs [] s t)

/-! ### Immediates and the ALU family -/

/-- R170, R171: LD_IMM and ADD_IMM. Neither writes VF unless it is V[x]. -/
def Obligations.ImmediateLoadsAndAdds : Prop :=
  EncodedAs 0xF000#16 0x6000#16 (fun w => .ldImm (fieldX w) (fieldNN w)) ∧
  EncodedAs 0xF000#16 0x7000#16 (fun w => .addImm (fieldX w) (fieldNN w)) ∧
  ∀ (x : Nibble) (nn : Byte) (s : State),
    (∃ t, exec (.ldImm x nn) s = .next t ∧ t.reg x = nn ∧ Advanced s t ∧ OnlyRegs [x] s t) ∧
    (∃ t, exec (.addImm x nn) s = .next t ∧ (t.reg x).toNat = ((s.reg x).toNat + nn.toNat) % 256 ∧
      Advanced s t ∧ OnlyRegs [x] s t)

/-- R181 to R184 (the sub-codes are from general knowledge): LD_REG, OR, AND, XOR, bit by bit. VF is left alone
unless it is V[x]. -/
def Obligations.CopyAndBitwise : Prop :=
  EncodedAs 0xF00F#16 0x8000#16 (fun w => .ldReg (fieldX w) (fieldY w)) ∧
  EncodedAs 0xF00F#16 0x8001#16 (fun w => .or (fieldX w) (fieldY w)) ∧
  EncodedAs 0xF00F#16 0x8002#16 (fun w => .and (fieldX w) (fieldY w)) ∧
  EncodedAs 0xF00F#16 0x8003#16 (fun w => .xor (fieldX w) (fieldY w)) ∧
  ∀ (x y : Nibble) (s : State),
    (∃ t, exec (.ldReg x y) s = .next t ∧ t.reg x = s.reg y ∧ Advanced s t ∧ OnlyRegs [x] s t) ∧
    (∃ t, exec (.or x y) s = .next t ∧
      (∀ k, (t.reg x).getLsbD k = ((s.reg x).getLsbD k || (s.reg y).getLsbD k)) ∧ Advanced s t ∧ OnlyRegs [x] s t) ∧
    (∃ t, exec (.and x y) s = .next t ∧
      (∀ k, (t.reg x).getLsbD k = ((s.reg x).getLsbD k && (s.reg y).getLsbD k)) ∧ Advanced s t ∧ OnlyRegs [x] s t) ∧
    (∃ t, exec (.xor x y) s = .next t ∧
      (∀ k, (t.reg x).getLsbD k = ((s.reg x).getLsbD k ^^ (s.reg y).getLsbD k)) ∧ Advanced s t ∧ OnlyRegs [x] s t)

/-- R185 (the sub-code is from general knowledge): ADD_VX_VY. VF is 1 exactly when the sum exceeds 255, written last, so
with x = 15 the flag is what remains; otherwise V[x] is the low 8 bits of the sum. Operands are the start-of-cycle
values, VF among them. -/
def Obligations.AddSetsSumAndCarry : Prop :=
  EncodedAs 0xF00F#16 0x8004#16 (fun w => .addVxVy (fieldX w) (fieldY w)) ∧
  ∀ (x y : Nibble) (s : State), ∃ t, exec (.addVxVy x y) s = .next t ∧
    (x ≠ 0xF#4 → (t.reg x).toNat = ((s.reg x).toNat + (s.reg y).toNat) % 256) ∧
    ((s.reg x).toNat + (s.reg y).toNat > 255 → t.reg 0xF#4 = 1#8) ∧
    ((s.reg x).toNat + (s.reg y).toNat ≤ 255 → t.reg 0xF#4 = 0#8) ∧
    Advanced s t ∧ OnlyRegs [x, 0xF#4] s t

/-- R186, R188 (the sub-codes are from general knowledge): SUB_VX_VY and SUBN. VF is 1 exactly when no borrow is needed,
written last; the difference is `a - b`, or `a - b + 256` when `a < b`. -/
def Obligations.SubtractionsSetDifferenceAndNoBorrow : Prop :=
  EncodedAs 0xF00F#16 0x8005#16 (fun w => .subVxVy (fieldX w) (fieldY w)) ∧
  EncodedAs 0xF00F#16 0x8007#16 (fun w => .subn (fieldX w) (fieldY w)) ∧
  ∀ (x y : Nibble) (s : State),
    (∃ t, exec (.subVxVy x y) s = .next t ∧
      (x ≠ 0xF#4 → (t.reg x).toNat = ((s.reg x).toNat + 256 - (s.reg y).toNat) % 256) ∧
      ((s.reg x).toNat ≥ (s.reg y).toNat → t.reg 0xF#4 = 1#8) ∧
      ((s.reg x).toNat < (s.reg y).toNat → t.reg 0xF#4 = 0#8) ∧
      Advanced s t ∧ OnlyRegs [x, 0xF#4] s t) ∧
    (∃ t, exec (.subn x y) s = .next t ∧
      (x ≠ 0xF#4 → (t.reg x).toNat = ((s.reg y).toNat + 256 - (s.reg x).toNat) % 256) ∧
      ((s.reg y).toNat ≥ (s.reg x).toNat → t.reg 0xF#4 = 1#8) ∧
      ((s.reg y).toNat < (s.reg x).toNat → t.reg 0xF#4 = 0#8) ∧
      Advanced s t ∧ OnlyRegs [x, 0xF#4] s t)

/-- spec/44_alu.md, SHR and SHL: that they shift V[x] and ignore y is the spec's own decision D1 (log entry 9). VF is
the bit shifted out, written last. -/
def Obligations.ShiftsMoveVxByOne : Prop :=
  ∀ (x y : Nibble) (s : State),
    (∃ t, exec (.shr x y) s = .next t ∧ (x ≠ 0xF#4 → (t.reg x).toNat = (s.reg x).toNat / 2) ∧
      (t.reg 0xF#4).toNat = (s.reg x).toNat % 2 ∧ Advanced s t ∧ OnlyRegs [x, 0xF#4] s t) ∧
    (∃ t, exec (.shl x y) s = .next t ∧ (x ≠ 0xF#4 → (t.reg x).toNat = 2 * (s.reg x).toNat % 256) ∧
      (t.reg 0xF#4).toNat = (s.reg x).toNat / 128 ∧ Advanced s t ∧ OnlyRegs [x, 0xF#4] s t)

/-! ### Index, offset jump, random -/

/-- R200, R244 and spec/48_misc_f.md on LD_FONT (glyphs at 5 times the whole 8-bit value from 0x000: the spec's decisions
D7 and D8): LD_I, ADD_I, LD_FONT write I and nothing else; VF is unaffected. -/
def Obligations.IndexInstructionsSetI : Prop :=
  (∀ (nnn : Addr12) (s : State), ∃ t, exec (.ldI nnn) s = .next t ∧ t.idx.toNat = nnn.toNat ∧ Advanced s t ∧
    OnlyRegs [] { s with idx := t.idx } t) ∧
  (∀ (x : Nibble) (s : State), ∃ t, exec (.addI x) s = .next t ∧
    t.idx.toNat = (s.idx.toNat + (s.reg x).toNat) % 65536 ∧ Advanced s t ∧ OnlyRegs [] { s with idx := t.idx } t) ∧
  (∀ (x : Nibble) (s : State), ∃ t, exec (.ldFont x) s = .next t ∧ t.idx.toNat = 5 * (s.reg x).toNat ∧
    Advanced s t ∧ OnlyRegs [] { s with idx := t.idx } t)

/-- R201 (the family number B is from general knowledge): JP_V0 adds V0, whatever the word's other bits say; the sum is
not masked to 12 bits and never wraps. -/
def Obligations.JpV0AddsV0 : Prop :=
  EncodedAs 0xF000#16 0xB000#16 (fun w => .jpV0 (fieldNNN w)) ∧
  ∀ (nnn : Addr12) (s : State), ∃ t, exec (.jpV0 nnn) s = .next t ∧
    t.pc.toNat = nnn.toNat + (s.reg 0x0#4).toNat ∧ t.pc.toNat ≤ 0x10FE ∧ t.status = .done ∧ OnlyRegs [] s t

/-- spec/45_index_offset_random.md on RND (an input free at each RND: the spec's decision D27; its form as a sequence of
free values is the model's, log entry 1): V[x] is the next random byte ANDed with nn, so no bit outside nn is set; the
statement holds for every value of the byte. -/
def Obligations.RndMasksTheRandomByte : Prop :=
  ∀ (x : Nibble) (nn : Byte) (s : State), ∃ t, exec (.rnd x nn) s = .next t ∧
    (∀ k, (t.reg x).getLsbD k = ((Config.rnd s.rndIndex).getLsbD k && nn.getLsbD k)) ∧
    (t.reg x).toNat ≤ nn.toNat ∧ t.rndIndex = s.rndIndex + 1 ∧ Advanced s t ∧
    OnlyRegs [x] { s with rndIndex := t.rndIndex } t

/-! ### Drawing -/

/-- spec/46_draw.md, DRW and its corner cases, with the whole-sprite bounds test of decision D3, latched coordinates of
D2 and height 0 of D21: the loops come to this. Every pixel is XORed with the sprite bit that lies on it, if any; VF is 1
exactly when some sprite bit 1 lies on a pixel that was set; draw_pending is set; memory is only read. -/
def Obligations.DrwXorsTheSprite : Prop :=
  ∀ (x y n : Nibble) (s : State), n.toNat = 0 ∨ s.idx.toNat + n.toNat - 1 ≤ 4095 →
    ∃ t, exec (.drw x y n) s = .next t ∧
      (∀ r c, t.fb.pixel r c = (s.fb.pixel r c ^^ s.spriteBit (s.reg x) (s.reg y) n r c)) ∧
      ((∃ r c, s.spriteBit (s.reg x) (s.reg y) n r c = true ∧ s.fb.pixel r c = true) → t.reg 0xF#4 = 1#8) ∧
      ((∀ r c, s.spriteBit (s.reg x) (s.reg y) n r c = true → s.fb.pixel r c = false) → t.reg 0xF#4 = 0#8) ∧
      t.drawPending = true ∧ Advanced s t ∧ SameRegsBut [0xF#4] s t ∧ t.idx = s.idx ∧ SameMemory s t ∧
      SameStack s t ∧ SameTimers s t ∧ SameLatches s t ∧ SameHost s t

/-- spec/46_draw.md on double application: the same DRW twice leaves the framebuffer as it was, and the second VF is 1
exactly when some sprite bit 1 fell on a pixel that was clear before the first. -/
def Obligations.DrwTwiceRestoresTheScreen : Prop :=
  ∀ (x y n : Nibble) (s : State), x ≠ 0xF#4 → y ≠ 0xF#4 → n.toNat = 0 ∨ s.idx.toNat + n.toNat - 1 ≤ 4095 →
    ∃ t t', exec (.drw x y n) s = .next t ∧ exec (.drw x y n) t = .next t' ∧ t'.fb = s.fb ∧
      (t'.reg 0xF#4 = 1#8 ↔
        ∃ r c, s.spriteBit (s.reg x) (s.reg y) n r c = true ∧ s.fb.pixel r c = false)

/-! ### Keypad and Misc family -/

/-- spec/47_keypad_skips.md (the key is V[x] modulo 16: the spec's decision D5): SKP and SKNP. -/
def Obligations.KeypadSkips : Prop :=
  ∀ (x : Nibble) (s : State) (k : Fin 16), k.val = (s.reg x).toNat % 16 →
    (∃ t, exec (.skp x) s = .next t ∧ Skipped (s.key[k] = true) s t ∧ OnlyRegs [] s t) ∧
    (∃ t, exec (.sknp x) s = .next t ∧ Skipped (s.key[k] = false) s t ∧ OnlyRegs [] s t)

/-- spec/48_misc_f.md on LD_KEY (the least key down: the spec's decision D6): with every key up nothing changes at all and
the status is WAITING; with some key down V[x] is the least of them and the instruction completes. -/
def Obligations.LdKeyWaitsOrTakesTheLeastKey : Prop :=
  (∀ (x : Nibble) (s : State), (∀ k : Fin 16, s.key[k] = false) →
    ∃ t, exec (.ldKey x) s = .next t ∧ t.status = .waiting ∧ { t with status := s.status } = s) ∧
  (∀ (x : Nibble) (s : State) (k : Fin 16), s.key[k] = true → (∀ j : Fin 16, j < k → s.key[j] = false) →
    ∃ t, exec (.ldKey x) s = .next t ∧ (t.reg x).toNat = k.val ∧ Advanced s t ∧ OnlyRegs [x] s t)

/-- R240, R242, R243 (the low bytes 07, 15 and 18 are from general knowledge): LD_DT, SET_DT, SET_ST. -/
def Obligations.TimerMoves : Prop :=
  EncodedAs 0xF0FF#16 0xF007#16 (fun w => .ldDt (fieldX w)) ∧
  EncodedAs 0xF0FF#16 0xF015#16 (fun w => .setDt (fieldX w)) ∧
  EncodedAs 0xF0FF#16 0xF018#16 (fun w => .setSt (fieldX w)) ∧
  ∀ (x : Nibble) (s : State),
    (∃ t, exec (.ldDt x) s = .next t ∧ t.reg x = s.dt ∧ Advanced s t ∧ OnlyRegs [x] s t) ∧
    (∃ t, exec (.setDt x) s = .next t ∧ t.dt = s.reg x ∧ t.st = s.st ∧ Advanced s t ∧
      OnlyRegs [] { s with dt := t.dt } t) ∧
    (∃ t, exec (.setSt x) s = .next t ∧ t.st = s.reg x ∧ t.dt = s.dt ∧ Advanced s t ∧
      OnlyRegs [] { s with st := t.st } t)

/-- R246, R249 (the low byte 33 is from general knowledge; no partial write is the spec's decision D3): LD_BCD writes
the three decimal digits at I, I + 1, I + 2 and changes no other byte; where a byte would lie above 4095 it is
DATA_OOB with nothing written. -/
def Obligations.LdBcdStoresThreeDigits : Prop :=
  EncodedAs 0xF0FF#16 0xF033#16 (fun w => .ldBcd (fieldX w)) ∧
  (∀ (x : Nibble) (s : State), s.idx.toNat + 2 ≤ 4095 → ∃ t, exec (.ldBcd x) s = .next t ∧
    (s.reg x).toNat = 100 * (t.readByte s.idx.toNat).toNat + 10 * (t.readByte (s.idx.toNat + 1)).toNat +
      (t.readByte (s.idx.toNat + 2)).toNat ∧
    (t.readByte s.idx.toNat).toNat ≤ 2 ∧ (t.readByte (s.idx.toNat + 1)).toNat ≤ 9 ∧
    (t.readByte (s.idx.toNat + 2)).toNat ≤ 9 ∧
    (∀ a, a < s.idx.toNat ∨ s.idx.toNat + 2 < a → t.readByte a = s.readByte a) ∧ Advanced s t ∧
    SameRegsBut [] s t ∧ t.idx = s.idx ∧ SameStack s t ∧ SameTimers s t ∧ SameScreen s t ∧ SameLatches s t ∧
    SameHost s t) ∧
  (∀ (x : Nibble) (s : State), s.idx.toNat + 2 > 4095 → ∃ t, exec (.ldBcd x) s = .next t ∧
    TookFatal .dataOob (encode (.ldBcd x)) (max s.idx.toNat 4096) s t)

/-- R247 (no partial write is the spec's decision D3): STORE writes V[0] to V[x] at I onward and changes no other byte;
I is unchanged. Where the last byte would lie above 4095 it is DATA_OOB with nothing written. -/
def Obligations.StoreWritesRegisters : Prop :=
  EncodedAs 0xF0FF#16 0xF055#16 (fun w => .store (fieldX w)) ∧
  (∀ (x : Nibble) (s : State), s.idx.toNat + x.toNat ≤ 4095 → ∃ t, exec (.store x) s = .next t ∧
    (∀ k : Nibble, k.toNat ≤ x.toNat → t.readByte (s.idx.toNat + k.toNat) = s.reg k) ∧
    (∀ a, a < s.idx.toNat ∨ s.idx.toNat + x.toNat < a → t.readByte a = s.readByte a) ∧ Advanced s t ∧
    SameRegsBut [] s t ∧ t.idx = s.idx ∧ SameStack s t ∧ SameTimers s t ∧ SameScreen s t ∧ SameLatches s t ∧
    SameHost s t) ∧
  (∀ (x : Nibble) (s : State), s.idx.toNat + x.toNat > 4095 → ∃ t, exec (.store x) s = .next t ∧
    TookFatal .dataOob (encode (.store x)) (max s.idx.toNat 4096) s t)

/-- R248 (no partial load is the spec's decision D3): LOAD reads I onward into V[0] to V[x]; registers above V[x], I and
memory are untouched. Where the last byte would lie above 4095 it is DATA_OOB with no register written. -/
def Obligations.LoadReadsRegisters : Prop :=
  EncodedAs 0xF0FF#16 0xF065#16 (fun w => .load (fieldX w)) ∧
  (∀ (x : Nibble) (s : State), s.idx.toNat + x.toNat ≤ 4095 → ∃ t, exec (.load x) s = .next t ∧
    (∀ k : Nibble, k.toNat ≤ x.toNat → t.reg k = s.readByte (s.idx.toNat + k.toNat)) ∧
    (∀ k : Nibble, x.toNat < k.toNat → t.reg k = s.reg k) ∧ Advanced s t ∧ OnlyRegs (upTo x) s t) ∧
  (∀ (x : Nibble) (s : State), s.idx.toNat + x.toNat > 4095 → ∃ t, exec (.load x) s = .next t ∧
    TookFatal .dataOob (encode (.load x)) (max s.idx.toNat 4096) s t)

/-- spec/20_memory.md on fetch coherence: a STORE over the two bytes after itself is what the next fetch reads, V0 as the
high byte. -/
def Obligations.StoredWordIsFetchedNext : Prop :=
  ∀ (x : Nibble) (s : State), 1 ≤ x.toNat → s.idx.toNat = s.pc.toNat + 2 → s.idx.toNat + x.toNat ≤ 4095 →
    ∃ t, exec (.store x) s = .next t ∧ t.fetchable = true ∧
      t.fetchWord.toNat = (s.reg 0x0#4).toNat * 256 + (s.reg 0x1#4).toNat

/-! ### Rules about the whole machine -/

/-- The invariant holds at reset. Two of its clauses are the model's choice there: that the status is not FATAL (the
spec gives the status no reset value; log entry 7), and that memory has its canonical form (log entry 14). -/
def Obligations.ResetHasTheInvariant : Prop := State.reset.Inv

/-- Every step keeps the invariant, whatever operation the host performs: pc at most 0x10FE (R26); return addresses 2
to 4096 (spec/41 on RET); the latches tell the one fatal condition and the last report (R35, the spec's decisions D14,
D15, D22). Two clauses are the model's choice: memory in canonical form is the model's form of memory (log entry 14);
and status FATAL exactly when halted holds after a reset by the status the model gives it there (log entry 7), and
after every other operation by R124 and R127. -/
def Obligations.EveryStepKeepsTheInvariant : Prop := ∀ s t : State, s.Inv → step s = .next t → t.Inv

/-- R128, R301 to R304, R308 (the spec's decisions D3 and D15): an instruction raises exactly the condition its row of
R308 names, and then nothing but the four latches and the status has changed. -/
def Obligations.FatalCycleChangesOnlyTheLatches : Prop :=
  ∀ (i : Instr) (s t : State), exec i s = .next t →
    (∀ c, i.raises s = some c → TookFatal c (encode i) (if c = .dataOob then max s.idx.toNat 4096 else 0) s t) ∧
    (i.raises s = none → t.status ≠ .fatal ∧ SameLatches s t)

/-- R22: no instruction writes a general register that its row of the table does not name. -/
def Obligations.OnlyTheListedRegistersAreWritten : Prop :=
  ∀ (i : Instr) (s t : State), exec i s = .next t → SameRegsBut i.writes s t

/-- R61, R63: no instruction but LD_BCD and STORE changes a byte of main memory, and no instruction changes a byte below
I, or 16 or more bytes above it. -/
def Obligations.OnlyLdBcdAndStoreWriteMemory : Prop :=
  ∀ (i : Instr) (s t : State), exec i s = .next t →
    ((∀ x, i ≠ .ldBcd x) → (∀ x, i ≠ .store x) → SameMemory s t) ∧
    (∀ a, a < s.idx.toNat ∨ s.idx.toNat + 16 ≤ a → t.readByte a = s.readByte a)

/-- R34, R38: the framebuffer changes only by CLS and DRW, each completed CLS and DRW leaves draw_pending set, and no
instruction clears it. -/
def Obligations.OnlyClsAndDrwTouchTheScreen : Prop :=
  ∀ (i : Instr) (s t : State), exec i s = .next t →
    ((∀ u, i ≠ .cls u) → (∀ x y n, i ≠ .drw x y n) → SameScreen s t) ∧
    (((∃ u, i = .cls u) ∨ ∃ x y n, i = .drw x y n) → t.status = .done → t.drawPending = true) ∧
    (s.drawPending = true → t.drawPending = true)

/-- R31, R32, R33, R37, R131: a cycle never writes the keypad; SP and the stack change only by CALL and RET; DT only by
SET_DT and ST only by SET_ST, so no cycle ticks a timer. -/
def Obligations.CyclesLeaveKeypadStackAndTimers : Prop :=
  ∀ (i : Instr) (s t : State), exec i s = .next t →
    t.key = s.key ∧ ((∀ n, i ≠ .call n) → (∀ u, i ≠ .ret u) → SameStack s t) ∧
    ((∀ x, i ≠ .setDt x) → t.dt = s.dt) ∧ ((∀ x, i ≠ .setSt x) → t.st = s.st)

/-- R131: a cycle, whatever it runs, changes DT only by SET_DT and ST only by SET_ST, to the register's value: it never
ticks a timer. Nothing but LD_DT reads DT, and nothing reads ST. -/
def Obligations.CyclesNeverTickATimer : Prop :=
  ∀ s t : State, cycle s = .next t →
    (t.dt = s.dt ∨ ∃ x, decodeWord s.fetchWord = .ok (.setDt x) ∧ t.dt = s.reg x) ∧
    (t.st = s.st ∨ ∃ x, decodeWord s.fetchWord = .ok (.setSt x) ∧ t.st = s.reg x) ∧
    (∀ d, (∀ x, decodeWord s.fetchWord ≠ .ok (.ldDt x)) →
      ∃ t', cycle { s with dt := d } = .next t' ∧ { t' with dt := t.dt } = t) ∧
    (∀ d, ∃ t', cycle { s with st := d } = .next t' ∧ { t' with st := t.st } = t)

/-- R33, R34, R35, R277: what the engine only shows to the host never influences it: hide draw_pending, ST, the report
latches and the status before a step, or after it, and the outcome is the same. -/
def Obligations.OutputsNeverInfluenceTheMachine : Prop :=
  ∀ s : State, hideOutcome (step s) = hideOutcome (step s.hideOutputs)

/-! ### The host's operations -/

/-- spec/60_exceptions.md on the tick: after k ticks in a row each timer is its old value less k, floored at 0, and
nothing else has changed. That the ticks are the first k operations of a list in State is the model's choice (log
entry 3); InterleavedTicksCountDown has other operations between them. -/
def Obligations.TicksCountDownToZero : Prop :=
  ∀ (k : Nat) (s : State) (later : List HostOp), s.pending = List.replicate k .tick ++ later →
    ∃ t, Host.Core.run Sys2Proof.core k s = .next t ∧
      t.dt.toNat = s.dt.toNat - k ∧ t.st.toNat = s.st.toNat - k ∧ t.pending = later ∧
      { t with dt := s.dt, st := s.st, pending := s.pending } = s

/-- R276, R277, R278: a key write sets one key and nothing else; a frame acknowledge clears draw_pending and nothing
else; a framebuffer read changes nothing. -/
def Obligations.HostWritesOneKeyOrTheFlag : Prop :=
  ∀ s : State,
    (∀ (k : Nibble) (down : Bool), ∃ t, perform (.keyWrite k down) s = .next t ∧
      (∀ j : Fin 16, t.key[j] = if j.val = k.toNat then down else s.key[j]) ∧ { t with key := s.key } = s) ∧
    (∃ t, perform .frameAck s = .next t ∧ t.drawPending = false ∧ { t with drawPending := s.drawPending } = s) ∧
    perform .frameRead s = .next s

/-- spec/49_host_operations.md on the ROM load (once, before the first Step: the spec's decision D24, log entry 5; a
failed load ends the run, log entry 6): the image lies from 0x200, zeros follow to 0xFFF, every other byte and all other
state is as before. -/
def Obligations.RomLoadPlacesTheImage : Prop :=
  (∀ (s : State) (image : List Byte), s.loadOpen = true → image.length ≤ 3584 →
    ∃ t, perform (.romLoad image) s = .next t ∧
      (∀ k (h : k < image.length), t.readByte (0x200 + k) = image[k]) ∧
      (∀ a, 0x200 + image.length ≤ a → a ≤ 0xFFF → t.readByte a = 0#8) ∧
      (∀ a, a < 0x200 ∨ 0xFFF < a → t.readByte a = s.readByte a) ∧ t.loadOpen = false ∧
      { t with mem := s.mem, loadOpen := s.loadOpen } = s) ∧
  (∀ (s : State) (image : List Byte), s.loadOpen = true → image.length > 3584 →
    perform (.romLoad image) s = .fault .romLoadFailed) ∧
  (∀ (s : State) (image : List Byte), s.loadOpen = false → perform (.romLoad image) s = .refused .romLoadOutOfTurn)

/-- spec/10_state.md's reset table and the reset operation: every piece of state at its value, the values the spec decides
itself among them (D18 for I, SP, keypad and draw_pending; D8, D9 for the font; D14, D15 for the latches); the status,
and that the host's list and the random bytes go on, are the model's choice (log entries 2, 5, 7). -/
def Obligations.ResetLeavesTheseValues : Prop :=
  ∀ s : State, ∃ t, perform .reset s = .next t ∧
    (∀ x, t.reg x = 0#8) ∧ t.pc = 0x200#16 ∧ t.idx = 0#16 ∧ t.sp.val = 0 ∧ (∀ k : Fin 16, t.stack[k] = 0#16) ∧
    t.dt = 0#8 ∧ t.st = 0#8 ∧ (∀ r c, t.fb.pixel r c = false) ∧ (∀ k : Fin 16, t.key[k] = false) ∧
    t.drawPending = false ∧ (∀ a, a < 80 → t.readByte a = fontData.getD a 0#8) ∧
    (∀ a, 80 ≤ a → t.readByte a = 0#8) ∧ t.fatalCause = .none ∧ t.faultPc = 0#16 ∧ t.faultWord = 0#16 ∧
    t.faultAddr = 0#17 ∧ t.reportWord = 0#16 ∧ t.reportAddr = 0#16 ∧ t.reportCount = 0 ∧ t.status = .done ∧
    t.loadOpen = true ∧ t.rndIndex = s.rndIndex ∧ t.pending = s.pending

/-- R23, R24: at reset every general register, VF included, reads 0 and pc is 0x200. -/
def Obligations.ResetRegistersAndPc : Prop := (∀ x, State.reset.reg x = 0#8) ∧ State.reset.pc.toNat = 0x200

/-- spec/60_exceptions.md on the tick, with Steps and other operations between the ticks: if k steps perform no reset,
and none of them runs a SET_DT, then DT is its old value less the number of ticks performed, floored at 0; the same for
ST and SET_ST. That the operations come from a list in State, and are Steps once it is empty, is the model's choice
(log entry 3). -/
def Obligations.InterleavedTicksCountDown : Prop :=
  ∀ (k : Nat) (s t : State), Host.Core.run Sys2Proof.core k s = .next t →
    (∀ j u, j < k → Host.Core.run Sys2Proof.core j s = .next u → u.takeOp.1 ≠ .reset) →
    ((∀ j u x, j < k → Host.Core.run Sys2Proof.core j s = .next u → ¬u.Runs (.setDt x)) →
      t.dt.toNat = s.dt.toNat - (s.pending.take k).count .tick) ∧
    ((∀ j u x, j < k → Host.Core.run Sys2Proof.core j s = .next u → ¬u.Runs (.setSt x)) →
      t.st.toNat = s.st.toNat - (s.pending.take k).count .tick)
end

