-- ==== Sys2Proof/Laws/Decode.lean ====
section
/-! SUPPORT. The fields of a word built from fields, a word rebuilt from its fields, and what the three masks of
the opcode table keep. -/

namespace Sys2Proof.Laws

theorem family_toNat (w : Word) : (family w).toNat = w.toNat / 4096 := by
  have := w.isLt; simp [family, Nat.shiftRight_eq_div_pow]; omega

theorem fieldX_toNat (w : Word) : (fieldX w).toNat = w.toNat / 256 % 16 := by
  simp [fieldX, Nat.shiftRight_eq_div_pow]

theorem fieldY_toNat (w : Word) : (fieldY w).toNat = w.toNat / 16 % 16 := by
  simp [fieldY, Nat.shiftRight_eq_div_pow]

theorem fieldN_toNat (w : Word) : (fieldN w).toNat = w.toNat % 16 := by simp [fieldN]

theorem fieldNN_toNat (w : Word) : (fieldNN w).toNat = w.toNat % 256 := by simp [fieldNN]

theorem fieldNNN_toNat (w : Word) : (fieldNNN w).toNat = w.toNat % 4096 := by simp [fieldNNN]

theorem wordNNN_toNat (f : Nibble) (a : Addr12) : (wordNNN f a).toNat = f.toNat * 4096 + a.toNat := by
  have := f.isLt; have := a.isLt; simp [wordNNN]; omega

theorem wordXNN_toNat (f x : Nibble) (nn : Byte) :
    (wordXNN f x nn).toNat = f.toNat * 4096 + x.toNat * 256 + nn.toNat := by
  have := f.isLt; have := x.isLt; have := nn.isLt; simp [wordXNN]; omega

theorem wordXYN_toNat (f x y n : Nibble) :
    (wordXYN f x y n).toNat = f.toNat * 4096 + x.toNat * 256 + y.toNat * 16 + n.toNat := by
  have := f.isLt; have := x.isLt; have := y.isLt; have := n.isLt; simp [wordXYN]; omega

@[simp] theorem family_wordNNN (f : Nibble) (a : Addr12) : family (wordNNN f a) = f := by
  apply BitVec.eq_of_toNat_eq; rw [family_toNat, wordNNN_toNat]; have := a.isLt; omega

@[simp] theorem fieldNNN_wordNNN (f : Nibble) (a : Addr12) : fieldNNN (wordNNN f a) = a := by
  apply BitVec.eq_of_toNat_eq; rw [fieldNNN_toNat, wordNNN_toNat]; have := a.isLt; omega

@[simp] theorem family_wordXNN (f x : Nibble) (nn : Byte) : family (wordXNN f x nn) = f := by
  apply BitVec.eq_of_toNat_eq; rw [family_toNat, wordXNN_toNat]; have := x.isLt; have := nn.isLt; omega

@[simp] theorem fieldX_wordXNN (f x : Nibble) (nn : Byte) : fieldX (wordXNN f x nn) = x := by
  apply BitVec.eq_of_toNat_eq; rw [fieldX_toNat, wordXNN_toNat]; have := x.isLt; have := nn.isLt; omega

@[simp] theorem fieldNN_wordXNN (f x : Nibble) (nn : Byte) : fieldNN (wordXNN f x nn) = nn := by
  apply BitVec.eq_of_toNat_eq; rw [fieldNN_toNat, wordXNN_toNat]; have := nn.isLt; omega

@[simp] theorem family_wordXYN (f x y n : Nibble) : family (wordXYN f x y n) = f := by
  apply BitVec.eq_of_toNat_eq; rw [family_toNat, wordXYN_toNat]
  have := x.isLt; have := y.isLt; have := n.isLt; omega

@[simp] theorem fieldX_wordXYN (f x y n : Nibble) : fieldX (wordXYN f x y n) = x := by
  apply BitVec.eq_of_toNat_eq; rw [fieldX_toNat, wordXYN_toNat]
  have := x.isLt; have := y.isLt; have := n.isLt; omega

@[simp] theorem fieldY_wordXYN (f x y n : Nibble) : fieldY (wordXYN f x y n) = y := by
  apply BitVec.eq_of_toNat_eq; rw [fieldY_toNat, wordXYN_toNat]; have := y.isLt; have := n.isLt; omega

@[simp] theorem fieldN_wordXYN (f x y n : Nibble) : fieldN (wordXYN f x y n) = n := by
  apply BitVec.eq_of_toNat_eq; rw [fieldN_toNat, wordXYN_toNat]; have := n.isLt; omega

/-- A word is its family and its low twelve bits. -/
theorem word_eq_wordNNN (w : Word) : w = wordNNN (family w) (fieldNNN w) := by
  apply BitVec.eq_of_toNat_eq; rw [wordNNN_toNat, family_toNat, fieldNNN_toNat]; omega

/-- A word is its family, its `x` and its low byte. -/
theorem word_eq_wordXNN (w : Word) : w = wordXNN (family w) (fieldX w) (fieldNN w) := by
  apply BitVec.eq_of_toNat_eq; rw [wordXNN_toNat, family_toNat, fieldX_toNat, fieldNN_toNat]; omega

/-- A word is its four nibbles. -/
theorem word_eq_wordXYN (w : Word) : w = wordXYN (family w) (fieldX w) (fieldY w) (fieldN w) := by
  apply BitVec.eq_of_toNat_eq
  rw [wordXYN_toNat, family_toNat, fieldX_toNat, fieldY_toNat, fieldN_toNat]; omega

/-- A word is its two bytes, high byte first. -/
theorem wordOfBytes_bytesOfWord (w : Word) : wordOfBytes (highByte w) (lowByte w) = w := by
  apply BitVec.eq_of_toNat_eq
  have := w.isLt; simp [wordOfBytes, highByte, lowByte, Nat.shiftRight_eq_div_pow]; omega

/-- Mask 0xF000 keeps the family. -/
theorem mask_family (w : Word) : (w &&& 0xF000#16).toNat = w.toNat / 4096 * 4096 := by
  have h : w &&& 0xF000#16 = (w >>> 12) <<< 12 := by
    apply BitVec.eq_of_getLsbD_eq; intro i hi; interval_cases i <;> simp
  have := w.isLt
  rw [h]; simp [Nat.shiftRight_eq_div_pow, Nat.shiftLeft_eq]; omega

/-- Mask 0xF0FF keeps the family and the low byte. -/
theorem mask_family_nn (w : Word) : (w &&& 0xF0FF#16).toNat = w.toNat / 4096 * 4096 + w.toNat % 256 := by
  have h : w &&& 0xF0FF#16 = (w >>> 12) <<< 12 + (w <<< 8) >>> 8 := by
    rw [BitVec.add_eq_or_of_and_eq_zero] <;>
      (apply BitVec.eq_of_getLsbD_eq; intro i hi; interval_cases i <;> simp)
  have := w.isLt
  rw [h]; simp [Nat.shiftRight_eq_div_pow, Nat.shiftLeft_eq]; omega

/-- Mask 0xF00F keeps the family and the low nibble. -/
theorem mask_family_n (w : Word) : (w &&& 0xF00F#16).toNat = w.toNat / 4096 * 4096 + w.toNat % 16 := by
  have h : w &&& 0xF00F#16 = (w >>> 12) <<< 12 + (w <<< 12) >>> 12 := by
    rw [BitVec.add_eq_or_of_and_eq_zero] <;>
      (apply BitVec.eq_of_getLsbD_eq; intro i hi; interval_cases i <;> simp)
  have := w.isLt
  rw [h]; simp [Nat.shiftRight_eq_div_pow, Nat.shiftLeft_eq]; omega

end Sys2Proof.Laws
end

