-- ==== Sys2Proof/Laws/Memory.lean ====
section
/-! SUPPORT. Main memory: a read after a write, every other byte kept, and the canonical form kept by every
operation. -/

namespace Sys2Proof.Machine

theorem Memory.listed_erase (m : Memory) (a a' : Nat) :
    Memory.listed (Memory.erase m a) a' = if a' = a then none else Memory.listed m a' := by
  induction m with
  | nil => simp [Memory.erase, Memory.listed]
  | cons c rest ih =>
    obtain ⟨k, b⟩ := c
    unfold Memory.erase at ih ⊢
    by_cases hk : k = a
    · subst hk; by_cases h : a' = k <;> simp_all [Memory.listed]
    · by_cases h : a' = k <;> simp_all [Memory.listed]

theorem Memory.listed_insert (m : Memory) (a a' : Nat) (b : Byte) (hm : Memory.listed m a = none) :
    Memory.listed (Memory.insert m a b) a' = if a' = a then some b else Memory.listed m a' := by
  induction m with
  | nil => simp [Memory.insert, Memory.listed]
  | cons c rest ih =>
    obtain ⟨k, d⟩ := c
    have hk : a ≠ k := by intro h; simp [Memory.listed, h] at hm
    simp only [Memory.listed, if_neg hk] at hm
    unfold Memory.insert
    split
    · simp [Memory.listed]
    · simp only [Memory.listed, ih hm]
      by_cases h1 : a' = k
      · rw [if_pos h1, if_pos h1, if_neg (by omega)]
      · simp [h1]

/-- A read after a write: the byte written at its address, every other byte as before (R60, R75). -/
theorem Memory.read_write (m : Memory) (a a' : Nat) (b : Byte) :
    Memory.read (Memory.write m a b) a' = if a' = a then b else Memory.read m a' := by
  unfold Memory.write Memory.read
  split
  · rename_i hb; rw [Memory.listed_erase]; split <;> simp_all
  · rw [Memory.listed_insert _ _ _ _ (by simp [Memory.listed_erase]), Memory.listed_erase]
    split <;> simp_all

/-- Bytes written at consecutive addresses are read there, every other byte as before (R65). -/
theorem Memory.read_writeBytes (m : Memory) (a a' : Nat) (bs : List Byte) :
    Memory.read (Memory.writeBytes m a bs) a' =
      if h : a ≤ a' ∧ a' < a + bs.length then bs[a' - a]'(by omega) else Memory.read m a' := by
  induction bs generalizing m a with
  | nil => simp only [Memory.writeBytes, List.length_nil]; rw [dif_neg (by omega)]
  | cons b bs ih =>
    rw [Memory.writeBytes, ih, Memory.read_write]
    simp only [List.length_cons]
    by_cases h : a' = a
    · subst h; rw [dif_neg (by omega), if_pos rfl, dif_pos (by omega)]; simp
    · by_cases h2 : a + 1 ≤ a' ∧ a' < a + 1 + bs.length
      · rw [dif_pos h2, dif_pos (by omega)]
        obtain ⟨d, hd⟩ : ∃ d, a' - a = d + 1 := ⟨a' - a - 1, by omega⟩
        simp only [hd, List.getElem_cons_succ, show a' - (a + 1) = d by omega]
      · rw [dif_neg h2, if_neg h, dif_neg (by omega)]

@[simp] theorem Memory.length_readBytes (m : Memory) (a n : Nat) : (Memory.readBytes m a n).length = n := by
  induction n generalizing a with
  | zero => rfl
  | succ n ih => simp [Memory.readBytes, ih]

/-- The k-th of the bytes read is the byte at the k-th address (R62, R65). -/
theorem Memory.getElem_readBytes (m : Memory) (a n k : Nat) (h : k < (Memory.readBytes m a n).length) :
    (Memory.readBytes m a n)[k] = Memory.read m (a + k) := by
  induction n generalizing a k with
  | zero => simp at h
  | succ n ih =>
    cases k with
    | zero => simp [Memory.readBytes]
    | succ k =>
      simp only [Memory.readBytes, List.getElem_cons_succ]
      rw [ih]; congr 1; omega

theorem Memory.wfFrom_mono {lo lo' : Nat} (h : lo' ≤ lo) {m : Memory} (hm : Memory.wfFrom lo m = true) :
    Memory.wfFrom lo' m = true := by
  cases m with
  | nil => rfl
  | cons c rest => simp_all [Memory.wfFrom]; omega

theorem Memory.wfFrom_erase {lo : Nat} (m : Memory) (a : Nat) (hm : Memory.wfFrom lo m = true) :
    Memory.wfFrom lo (Memory.erase m a) = true := by
  induction m generalizing lo with
  | nil => rfl
  | cons c rest ih =>
    obtain ⟨k, b⟩ := c
    simp only [Memory.wfFrom, Bool.and_eq_true, decide_eq_true_eq] at hm
    have hr := ih hm.2
    unfold Memory.erase at hr ⊢
    by_cases hk : k = a
    · simp only [List.filter_cons, hk, bne_self_eq_false, Bool.false_eq_true, if_false]
      exact Memory.wfFrom_mono (by omega) hr
    · simp [hk, Memory.wfFrom, hm, hr]

theorem Memory.wfFrom_insert {lo : Nat} (m : Memory) (a : Nat) (b : Byte) (hm : Memory.wfFrom lo m = true)
    (hlo : lo ≤ a) (ha : a < Config.memSize) (hb : b ≠ Memory.initial a) (hl : Memory.listed m a = none) :
    Memory.wfFrom lo (Memory.insert m a b) = true := by
  induction m generalizing lo with
  | nil => simp [Memory.insert, Memory.wfFrom, *]
  | cons c rest ih =>
    obtain ⟨k, d⟩ := c
    have hk : a ≠ k := by intro h; simp [Memory.listed, h] at hl
    simp only [Memory.listed, if_neg hk] at hl
    simp only [Memory.wfFrom, Bool.and_eq_true, decide_eq_true_eq] at hm
    unfold Memory.insert
    split
    · simp [Memory.wfFrom, hlo, ha, hb, hm]; omega
    · simp [Memory.wfFrom, hm, ih hm.2 (by omega) hl]

/-- A write inside memory keeps the canonical form. -/
theorem Memory.wf_write (m : Memory) (a : Nat) (b : Byte) (hm : Memory.wf m = true) (ha : a < Config.memSize) :
    Memory.wf (Memory.write m a b) = true := by
  unfold Memory.write
  split
  · exact Memory.wfFrom_erase m a hm
  · exact Memory.wfFrom_insert _ a b (Memory.wfFrom_erase m a hm) (Nat.zero_le a) ha ‹_›
      (by simp [Memory.listed_erase])

/-- Writes inside memory keep the canonical form. -/
theorem Memory.wf_writeBytes (m : Memory) (a : Nat) (bs : List Byte) (hm : Memory.wf m = true)
    (ha : a + bs.length ≤ Config.memSize) : Memory.wf (Memory.writeBytes m a bs) = true := by
  induction bs generalizing m a with
  | nil => exact hm
  | cons b bs ih =>
    simp only [List.length_cons] at ha
    exact ih _ _ (Memory.wf_write m a b hm (by omega)) (by omega)

/-- An address below everything listed is not listed. -/
theorem Memory.listed_of_lt {lo a : Nat} (m : Memory) (hm : Memory.wfFrom lo m = true) (ha : a < lo) :
    Memory.listed m a = none := by
  induction m generalizing lo with
  | nil => rfl
  | cons c rest ih =>
    obtain ⟨k, b⟩ := c
    simp only [Memory.wfFrom, Bool.and_eq_true, decide_eq_true_iff] at hm
    rw [Memory.listed, if_neg (by omega), ih hm.2 (by omega)]

/-- In canonical form equal memories are equal lists. -/
theorem Memory.eq_of_read_eq {lo lo' : Nat} (m m' : Memory) (hm : Memory.wfFrom lo m = true)
    (hm' : Memory.wfFrom lo' m' = true) (h : ∀ a, Memory.read m a = Memory.read m' a) : m = m' := by
  induction m generalizing lo lo' m' with
  | nil =>
    cases m' with
    | nil => rfl
    | cons c rest =>
      have hc := h c.1
      simp only [Memory.wfFrom, Bool.and_eq_true, decide_eq_true_iff] at hm'
      simp [Memory.read, Memory.listed] at hc
      exact absurd hc.symm hm'.1.2
  | cons c rest ih =>
    obtain ⟨k, b⟩ := c
    simp only [Memory.wfFrom, Bool.and_eq_true, decide_eq_true_iff] at hm
    have hk := h k
    cases m' with
    | nil => simp [Memory.read, Memory.listed] at hk; exact absurd hk hm.1.2
    | cons c' rest' =>
      obtain ⟨k', b'⟩ := c'
      simp only [Memory.wfFrom, Bool.and_eq_true, decide_eq_true_iff] at hm'
      have hk' := h k'
      have none_of_lt {a : Nat} (ha : a ≤ k) : Memory.listed rest a = none := Memory.listed_of_lt rest hm.2 (by omega)
      have none_of_lt' {a : Nat} (ha : a ≤ k') : Memory.listed rest' a = none :=
        Memory.listed_of_lt rest' hm'.2 (by omega)
      rcases Nat.lt_trichotomy k k' with hlt | rfl | hlt
      · simp [Memory.read, Memory.listed, Nat.ne_of_lt hlt, none_of_lt' (Nat.le_of_lt hlt)] at hk
        exact absurd hk hm.1.2
      · simp [Memory.read, Memory.listed] at hk
        rw [hk, ih rest' hm.2 hm'.2]
        intro a
        by_cases ha : a = k
        · rw [ha, Memory.read, Memory.read, none_of_lt le_rfl, none_of_lt' le_rfl]
        · simpa [Memory.read, Memory.listed, ha] using h a
      · simp [Memory.read, Memory.listed, Nat.ne_of_lt hlt, none_of_lt (Nat.le_of_lt hlt)] at hk'
        exact absurd hk'.symm hm'.1.2

end Sys2Proof.Machine
end

