-- ==== Sys2Proof/Laws/State.lean ====
section
/-! SUPPORT. What each named update does to each field of State: one lemma per field per update, true by rfl, so
that no later proof unfolds a record update. Composite updates (next, skipIf, takeDataOob, takeFetchOob) come down to these by their own lemmas at the end. -/

namespace Sys2Proof.Machine


/-! ### setReg -/

@[simp] theorem setReg_v (s : State) (x : Nibble) (b : Byte) : (s.setReg x b).v = s.v.set x.toNat b x.isLt := rfl
@[simp] theorem setReg_idx (s : State) (x : Nibble) (b : Byte) : (s.setReg x b).idx = s.idx := rfl
@[simp] theorem setReg_pc (s : State) (x : Nibble) (b : Byte) : (s.setReg x b).pc = s.pc := rfl
@[simp] theorem setReg_sp (s : State) (x : Nibble) (b : Byte) : (s.setReg x b).sp = s.sp := rfl
@[simp] theorem setReg_stack (s : State) (x : Nibble) (b : Byte) : (s.setReg x b).stack = s.stack := rfl
@[simp] theorem setReg_dt (s : State) (x : Nibble) (b : Byte) : (s.setReg x b).dt = s.dt := rfl
@[simp] theorem setReg_st (s : State) (x : Nibble) (b : Byte) : (s.setReg x b).st = s.st := rfl
@[simp] theorem setReg_fb (s : State) (x : Nibble) (b : Byte) : (s.setReg x b).fb = s.fb := rfl
@[simp] theorem setReg_key (s : State) (x : Nibble) (b : Byte) : (s.setReg x b).key = s.key := rfl
@[simp] theorem setReg_drawPending (s : State) (x : Nibble) (b : Byte) : (s.setReg x b).drawPending = s.drawPending := rfl
@[simp] theorem setReg_mem (s : State) (x : Nibble) (b : Byte) : (s.setReg x b).mem = s.mem := rfl
@[simp] theorem setReg_fatalCause (s : State) (x : Nibble) (b : Byte) : (s.setReg x b).fatalCause = s.fatalCause := rfl
@[simp] theorem setReg_faultPc (s : State) (x : Nibble) (b : Byte) : (s.setReg x b).faultPc = s.faultPc := rfl
@[simp] theorem setReg_faultWord (s : State) (x : Nibble) (b : Byte) : (s.setReg x b).faultWord = s.faultWord := rfl
@[simp] theorem setReg_faultAddr (s : State) (x : Nibble) (b : Byte) : (s.setReg x b).faultAddr = s.faultAddr := rfl
@[simp] theorem setReg_reportWord (s : State) (x : Nibble) (b : Byte) : (s.setReg x b).reportWord = s.reportWord := rfl
@[simp] theorem setReg_reportAddr (s : State) (x : Nibble) (b : Byte) : (s.setReg x b).reportAddr = s.reportAddr := rfl
@[simp] theorem setReg_reportCount (s : State) (x : Nibble) (b : Byte) : (s.setReg x b).reportCount = s.reportCount := rfl
@[simp] theorem setReg_status (s : State) (x : Nibble) (b : Byte) : (s.setReg x b).status = s.status := rfl
@[simp] theorem setReg_rndIndex (s : State) (x : Nibble) (b : Byte) : (s.setReg x b).rndIndex = s.rndIndex := rfl
@[simp] theorem setReg_loadOpen (s : State) (x : Nibble) (b : Byte) : (s.setReg x b).loadOpen = s.loadOpen := rfl
@[simp] theorem setReg_pending (s : State) (x : Nibble) (b : Byte) : (s.setReg x b).pending = s.pending := rfl

/-! ### setFlag -/

@[simp] theorem setFlag_v (s : State) (f : Bool) : (s.setFlag f).v = (s.setReg 0xF#4 (if f then 1#8 else 0#8)).v := rfl
@[simp] theorem setFlag_idx (s : State) (f : Bool) : (s.setFlag f).idx = s.idx := rfl
@[simp] theorem setFlag_pc (s : State) (f : Bool) : (s.setFlag f).pc = s.pc := rfl
@[simp] theorem setFlag_sp (s : State) (f : Bool) : (s.setFlag f).sp = s.sp := rfl
@[simp] theorem setFlag_stack (s : State) (f : Bool) : (s.setFlag f).stack = s.stack := rfl
@[simp] theorem setFlag_dt (s : State) (f : Bool) : (s.setFlag f).dt = s.dt := rfl
@[simp] theorem setFlag_st (s : State) (f : Bool) : (s.setFlag f).st = s.st := rfl
@[simp] theorem setFlag_fb (s : State) (f : Bool) : (s.setFlag f).fb = s.fb := rfl
@[simp] theorem setFlag_key (s : State) (f : Bool) : (s.setFlag f).key = s.key := rfl
@[simp] theorem setFlag_drawPending (s : State) (f : Bool) : (s.setFlag f).drawPending = s.drawPending := rfl
@[simp] theorem setFlag_mem (s : State) (f : Bool) : (s.setFlag f).mem = s.mem := rfl
@[simp] theorem setFlag_fatalCause (s : State) (f : Bool) : (s.setFlag f).fatalCause = s.fatalCause := rfl
@[simp] theorem setFlag_faultPc (s : State) (f : Bool) : (s.setFlag f).faultPc = s.faultPc := rfl
@[simp] theorem setFlag_faultWord (s : State) (f : Bool) : (s.setFlag f).faultWord = s.faultWord := rfl
@[simp] theorem setFlag_faultAddr (s : State) (f : Bool) : (s.setFlag f).faultAddr = s.faultAddr := rfl
@[simp] theorem setFlag_reportWord (s : State) (f : Bool) : (s.setFlag f).reportWord = s.reportWord := rfl
@[simp] theorem setFlag_reportAddr (s : State) (f : Bool) : (s.setFlag f).reportAddr = s.reportAddr := rfl
@[simp] theorem setFlag_reportCount (s : State) (f : Bool) : (s.setFlag f).reportCount = s.reportCount := rfl
@[simp] theorem setFlag_status (s : State) (f : Bool) : (s.setFlag f).status = s.status := rfl
@[simp] theorem setFlag_rndIndex (s : State) (f : Bool) : (s.setFlag f).rndIndex = s.rndIndex := rfl
@[simp] theorem setFlag_loadOpen (s : State) (f : Bool) : (s.setFlag f).loadOpen = s.loadOpen := rfl
@[simp] theorem setFlag_pending (s : State) (f : Bool) : (s.setFlag f).pending = s.pending := rfl

/-! ### setFlagged -/

@[simp] theorem setFlagged_v (s : State) (x : Nibble) (r : Flagged) : (s.setFlagged x r).v = ((s.setReg x r.result).setFlag r.flag).v := rfl
@[simp] theorem setFlagged_idx (s : State) (x : Nibble) (r : Flagged) : (s.setFlagged x r).idx = s.idx := rfl
@[simp] theorem setFlagged_pc (s : State) (x : Nibble) (r : Flagged) : (s.setFlagged x r).pc = s.pc := rfl
@[simp] theorem setFlagged_sp (s : State) (x : Nibble) (r : Flagged) : (s.setFlagged x r).sp = s.sp := rfl
@[simp] theorem setFlagged_stack (s : State) (x : Nibble) (r : Flagged) : (s.setFlagged x r).stack = s.stack := rfl
@[simp] theorem setFlagged_dt (s : State) (x : Nibble) (r : Flagged) : (s.setFlagged x r).dt = s.dt := rfl
@[simp] theorem setFlagged_st (s : State) (x : Nibble) (r : Flagged) : (s.setFlagged x r).st = s.st := rfl
@[simp] theorem setFlagged_fb (s : State) (x : Nibble) (r : Flagged) : (s.setFlagged x r).fb = s.fb := rfl
@[simp] theorem setFlagged_key (s : State) (x : Nibble) (r : Flagged) : (s.setFlagged x r).key = s.key := rfl
@[simp] theorem setFlagged_drawPending (s : State) (x : Nibble) (r : Flagged) : (s.setFlagged x r).drawPending = s.drawPending := rfl
@[simp] theorem setFlagged_mem (s : State) (x : Nibble) (r : Flagged) : (s.setFlagged x r).mem = s.mem := rfl
@[simp] theorem setFlagged_fatalCause (s : State) (x : Nibble) (r : Flagged) : (s.setFlagged x r).fatalCause = s.fatalCause := rfl
@[simp] theorem setFlagged_faultPc (s : State) (x : Nibble) (r : Flagged) : (s.setFlagged x r).faultPc = s.faultPc := rfl
@[simp] theorem setFlagged_faultWord (s : State) (x : Nibble) (r : Flagged) : (s.setFlagged x r).faultWord = s.faultWord := rfl
@[simp] theorem setFlagged_faultAddr (s : State) (x : Nibble) (r : Flagged) : (s.setFlagged x r).faultAddr = s.faultAddr := rfl
@[simp] theorem setFlagged_reportWord (s : State) (x : Nibble) (r : Flagged) : (s.setFlagged x r).reportWord = s.reportWord := rfl
@[simp] theorem setFlagged_reportAddr (s : State) (x : Nibble) (r : Flagged) : (s.setFlagged x r).reportAddr = s.reportAddr := rfl
@[simp] theorem setFlagged_reportCount (s : State) (x : Nibble) (r : Flagged) : (s.setFlagged x r).reportCount = s.reportCount := rfl
@[simp] theorem setFlagged_status (s : State) (x : Nibble) (r : Flagged) : (s.setFlagged x r).status = s.status := rfl
@[simp] theorem setFlagged_rndIndex (s : State) (x : Nibble) (r : Flagged) : (s.setFlagged x r).rndIndex = s.rndIndex := rfl
@[simp] theorem setFlagged_loadOpen (s : State) (x : Nibble) (r : Flagged) : (s.setFlagged x r).loadOpen = s.loadOpen := rfl
@[simp] theorem setFlagged_pending (s : State) (x : Nibble) (r : Flagged) : (s.setFlagged x r).pending = s.pending := rfl

/-! ### setIdx -/

@[simp] theorem setIdx_v (s : State) (w : Word) : (s.setIdx w).v = s.v := rfl
@[simp] theorem setIdx_idx (s : State) (w : Word) : (s.setIdx w).idx = w := rfl
@[simp] theorem setIdx_pc (s : State) (w : Word) : (s.setIdx w).pc = s.pc := rfl
@[simp] theorem setIdx_sp (s : State) (w : Word) : (s.setIdx w).sp = s.sp := rfl
@[simp] theorem setIdx_stack (s : State) (w : Word) : (s.setIdx w).stack = s.stack := rfl
@[simp] theorem setIdx_dt (s : State) (w : Word) : (s.setIdx w).dt = s.dt := rfl
@[simp] theorem setIdx_st (s : State) (w : Word) : (s.setIdx w).st = s.st := rfl
@[simp] theorem setIdx_fb (s : State) (w : Word) : (s.setIdx w).fb = s.fb := rfl
@[simp] theorem setIdx_key (s : State) (w : Word) : (s.setIdx w).key = s.key := rfl
@[simp] theorem setIdx_drawPending (s : State) (w : Word) : (s.setIdx w).drawPending = s.drawPending := rfl
@[simp] theorem setIdx_mem (s : State) (w : Word) : (s.setIdx w).mem = s.mem := rfl
@[simp] theorem setIdx_fatalCause (s : State) (w : Word) : (s.setIdx w).fatalCause = s.fatalCause := rfl
@[simp] theorem setIdx_faultPc (s : State) (w : Word) : (s.setIdx w).faultPc = s.faultPc := rfl
@[simp] theorem setIdx_faultWord (s : State) (w : Word) : (s.setIdx w).faultWord = s.faultWord := rfl
@[simp] theorem setIdx_faultAddr (s : State) (w : Word) : (s.setIdx w).faultAddr = s.faultAddr := rfl
@[simp] theorem setIdx_reportWord (s : State) (w : Word) : (s.setIdx w).reportWord = s.reportWord := rfl
@[simp] theorem setIdx_reportAddr (s : State) (w : Word) : (s.setIdx w).reportAddr = s.reportAddr := rfl
@[simp] theorem setIdx_reportCount (s : State) (w : Word) : (s.setIdx w).reportCount = s.reportCount := rfl
@[simp] theorem setIdx_status (s : State) (w : Word) : (s.setIdx w).status = s.status := rfl
@[simp] theorem setIdx_rndIndex (s : State) (w : Word) : (s.setIdx w).rndIndex = s.rndIndex := rfl
@[simp] theorem setIdx_loadOpen (s : State) (w : Word) : (s.setIdx w).loadOpen = s.loadOpen := rfl
@[simp] theorem setIdx_pending (s : State) (w : Word) : (s.setIdx w).pending = s.pending := rfl

/-! ### setDelay -/

@[simp] theorem setDelay_v (s : State) (b : Byte) : (s.setDelay b).v = s.v := rfl
@[simp] theorem setDelay_idx (s : State) (b : Byte) : (s.setDelay b).idx = s.idx := rfl
@[simp] theorem setDelay_pc (s : State) (b : Byte) : (s.setDelay b).pc = s.pc := rfl
@[simp] theorem setDelay_sp (s : State) (b : Byte) : (s.setDelay b).sp = s.sp := rfl
@[simp] theorem setDelay_stack (s : State) (b : Byte) : (s.setDelay b).stack = s.stack := rfl
@[simp] theorem setDelay_dt (s : State) (b : Byte) : (s.setDelay b).dt = b := rfl
@[simp] theorem setDelay_st (s : State) (b : Byte) : (s.setDelay b).st = s.st := rfl
@[simp] theorem setDelay_fb (s : State) (b : Byte) : (s.setDelay b).fb = s.fb := rfl
@[simp] theorem setDelay_key (s : State) (b : Byte) : (s.setDelay b).key = s.key := rfl
@[simp] theorem setDelay_drawPending (s : State) (b : Byte) : (s.setDelay b).drawPending = s.drawPending := rfl
@[simp] theorem setDelay_mem (s : State) (b : Byte) : (s.setDelay b).mem = s.mem := rfl
@[simp] theorem setDelay_fatalCause (s : State) (b : Byte) : (s.setDelay b).fatalCause = s.fatalCause := rfl
@[simp] theorem setDelay_faultPc (s : State) (b : Byte) : (s.setDelay b).faultPc = s.faultPc := rfl
@[simp] theorem setDelay_faultWord (s : State) (b : Byte) : (s.setDelay b).faultWord = s.faultWord := rfl
@[simp] theorem setDelay_faultAddr (s : State) (b : Byte) : (s.setDelay b).faultAddr = s.faultAddr := rfl
@[simp] theorem setDelay_reportWord (s : State) (b : Byte) : (s.setDelay b).reportWord = s.reportWord := rfl
@[simp] theorem setDelay_reportAddr (s : State) (b : Byte) : (s.setDelay b).reportAddr = s.reportAddr := rfl
@[simp] theorem setDelay_reportCount (s : State) (b : Byte) : (s.setDelay b).reportCount = s.reportCount := rfl
@[simp] theorem setDelay_status (s : State) (b : Byte) : (s.setDelay b).status = s.status := rfl
@[simp] theorem setDelay_rndIndex (s : State) (b : Byte) : (s.setDelay b).rndIndex = s.rndIndex := rfl
@[simp] theorem setDelay_loadOpen (s : State) (b : Byte) : (s.setDelay b).loadOpen = s.loadOpen := rfl
@[simp] theorem setDelay_pending (s : State) (b : Byte) : (s.setDelay b).pending = s.pending := rfl

/-! ### setSound -/

@[simp] theorem setSound_v (s : State) (b : Byte) : (s.setSound b).v = s.v := rfl
@[simp] theorem setSound_idx (s : State) (b : Byte) : (s.setSound b).idx = s.idx := rfl
@[simp] theorem setSound_pc (s : State) (b : Byte) : (s.setSound b).pc = s.pc := rfl
@[simp] theorem setSound_sp (s : State) (b : Byte) : (s.setSound b).sp = s.sp := rfl
@[simp] theorem setSound_stack (s : State) (b : Byte) : (s.setSound b).stack = s.stack := rfl
@[simp] theorem setSound_dt (s : State) (b : Byte) : (s.setSound b).dt = s.dt := rfl
@[simp] theorem setSound_st (s : State) (b : Byte) : (s.setSound b).st = b := rfl
@[simp] theorem setSound_fb (s : State) (b : Byte) : (s.setSound b).fb = s.fb := rfl
@[simp] theorem setSound_key (s : State) (b : Byte) : (s.setSound b).key = s.key := rfl
@[simp] theorem setSound_drawPending (s : State) (b : Byte) : (s.setSound b).drawPending = s.drawPending := rfl
@[simp] theorem setSound_mem (s : State) (b : Byte) : (s.setSound b).mem = s.mem := rfl
@[simp] theorem setSound_fatalCause (s : State) (b : Byte) : (s.setSound b).fatalCause = s.fatalCause := rfl
@[simp] theorem setSound_faultPc (s : State) (b : Byte) : (s.setSound b).faultPc = s.faultPc := rfl
@[simp] theorem setSound_faultWord (s : State) (b : Byte) : (s.setSound b).faultWord = s.faultWord := rfl
@[simp] theorem setSound_faultAddr (s : State) (b : Byte) : (s.setSound b).faultAddr = s.faultAddr := rfl
@[simp] theorem setSound_reportWord (s : State) (b : Byte) : (s.setSound b).reportWord = s.reportWord := rfl
@[simp] theorem setSound_reportAddr (s : State) (b : Byte) : (s.setSound b).reportAddr = s.reportAddr := rfl
@[simp] theorem setSound_reportCount (s : State) (b : Byte) : (s.setSound b).reportCount = s.reportCount := rfl
@[simp] theorem setSound_status (s : State) (b : Byte) : (s.setSound b).status = s.status := rfl
@[simp] theorem setSound_rndIndex (s : State) (b : Byte) : (s.setSound b).rndIndex = s.rndIndex := rfl
@[simp] theorem setSound_loadOpen (s : State) (b : Byte) : (s.setSound b).loadOpen = s.loadOpen := rfl
@[simp] theorem setSound_pending (s : State) (b : Byte) : (s.setSound b).pending = s.pending := rfl

/-! ### loadRegs -/

@[simp] theorem loadRegs_v (s : State) (bs : List Byte) : (s.loadRegs bs).v = loadedRegs s.v bs := rfl
@[simp] theorem loadRegs_idx (s : State) (bs : List Byte) : (s.loadRegs bs).idx = s.idx := by dsimp only [State.loadRegs]
@[simp] theorem loadRegs_pc (s : State) (bs : List Byte) : (s.loadRegs bs).pc = s.pc := by dsimp only [State.loadRegs]
@[simp] theorem loadRegs_sp (s : State) (bs : List Byte) : (s.loadRegs bs).sp = s.sp := by dsimp only [State.loadRegs]
@[simp] theorem loadRegs_stack (s : State) (bs : List Byte) : (s.loadRegs bs).stack = s.stack := by dsimp only [State.loadRegs]
@[simp] theorem loadRegs_dt (s : State) (bs : List Byte) : (s.loadRegs bs).dt = s.dt := by dsimp only [State.loadRegs]
@[simp] theorem loadRegs_st (s : State) (bs : List Byte) : (s.loadRegs bs).st = s.st := by dsimp only [State.loadRegs]
@[simp] theorem loadRegs_fb (s : State) (bs : List Byte) : (s.loadRegs bs).fb = s.fb := by dsimp only [State.loadRegs]
@[simp] theorem loadRegs_key (s : State) (bs : List Byte) : (s.loadRegs bs).key = s.key := by dsimp only [State.loadRegs]
@[simp] theorem loadRegs_drawPending (s : State) (bs : List Byte) : (s.loadRegs bs).drawPending = s.drawPending := by dsimp only [State.loadRegs]
@[simp] theorem loadRegs_mem (s : State) (bs : List Byte) : (s.loadRegs bs).mem = s.mem := by dsimp only [State.loadRegs]
@[simp] theorem loadRegs_fatalCause (s : State) (bs : List Byte) : (s.loadRegs bs).fatalCause = s.fatalCause := by dsimp only [State.loadRegs]
@[simp] theorem loadRegs_faultPc (s : State) (bs : List Byte) : (s.loadRegs bs).faultPc = s.faultPc := by dsimp only [State.loadRegs]
@[simp] theorem loadRegs_faultWord (s : State) (bs : List Byte) : (s.loadRegs bs).faultWord = s.faultWord := by dsimp only [State.loadRegs]
@[simp] theorem loadRegs_faultAddr (s : State) (bs : List Byte) : (s.loadRegs bs).faultAddr = s.faultAddr := by dsimp only [State.loadRegs]
@[simp] theorem loadRegs_reportWord (s : State) (bs : List Byte) : (s.loadRegs bs).reportWord = s.reportWord := by dsimp only [State.loadRegs]
@[simp] theorem loadRegs_reportAddr (s : State) (bs : List Byte) : (s.loadRegs bs).reportAddr = s.reportAddr := by dsimp only [State.loadRegs]
@[simp] theorem loadRegs_reportCount (s : State) (bs : List Byte) : (s.loadRegs bs).reportCount = s.reportCount := by dsimp only [State.loadRegs]
@[simp] theorem loadRegs_status (s : State) (bs : List Byte) : (s.loadRegs bs).status = s.status := by dsimp only [State.loadRegs]
@[simp] theorem loadRegs_rndIndex (s : State) (bs : List Byte) : (s.loadRegs bs).rndIndex = s.rndIndex := by dsimp only [State.loadRegs]
@[simp] theorem loadRegs_loadOpen (s : State) (bs : List Byte) : (s.loadRegs bs).loadOpen = s.loadOpen := by dsimp only [State.loadRegs]
@[simp] theorem loadRegs_pending (s : State) (bs : List Byte) : (s.loadRegs bs).pending = s.pending := by dsimp only [State.loadRegs]

/-! ### writeBytes -/

@[simp] theorem writeBytes_v (s : State) (a : Nat) (bs : List Byte) : (s.writeBytes a bs).v = s.v := rfl
@[simp] theorem writeBytes_idx (s : State) (a : Nat) (bs : List Byte) : (s.writeBytes a bs).idx = s.idx := rfl
@[simp] theorem writeBytes_pc (s : State) (a : Nat) (bs : List Byte) : (s.writeBytes a bs).pc = s.pc := rfl
@[simp] theorem writeBytes_sp (s : State) (a : Nat) (bs : List Byte) : (s.writeBytes a bs).sp = s.sp := rfl
@[simp] theorem writeBytes_stack (s : State) (a : Nat) (bs : List Byte) : (s.writeBytes a bs).stack = s.stack := rfl
@[simp] theorem writeBytes_dt (s : State) (a : Nat) (bs : List Byte) : (s.writeBytes a bs).dt = s.dt := rfl
@[simp] theorem writeBytes_st (s : State) (a : Nat) (bs : List Byte) : (s.writeBytes a bs).st = s.st := rfl
@[simp] theorem writeBytes_fb (s : State) (a : Nat) (bs : List Byte) : (s.writeBytes a bs).fb = s.fb := rfl
@[simp] theorem writeBytes_key (s : State) (a : Nat) (bs : List Byte) : (s.writeBytes a bs).key = s.key := rfl
@[simp] theorem writeBytes_drawPending (s : State) (a : Nat) (bs : List Byte) : (s.writeBytes a bs).drawPending = s.drawPending := rfl
@[simp] theorem writeBytes_mem (s : State) (a : Nat) (bs : List Byte) : (s.writeBytes a bs).mem = Memory.writeBytes s.mem a bs := rfl
@[simp] theorem writeBytes_fatalCause (s : State) (a : Nat) (bs : List Byte) : (s.writeBytes a bs).fatalCause = s.fatalCause := rfl
@[simp] theorem writeBytes_faultPc (s : State) (a : Nat) (bs : List Byte) : (s.writeBytes a bs).faultPc = s.faultPc := rfl
@[simp] theorem writeBytes_faultWord (s : State) (a : Nat) (bs : List Byte) : (s.writeBytes a bs).faultWord = s.faultWord := rfl
@[simp] theorem writeBytes_faultAddr (s : State) (a : Nat) (bs : List Byte) : (s.writeBytes a bs).faultAddr = s.faultAddr := rfl
@[simp] theorem writeBytes_reportWord (s : State) (a : Nat) (bs : List Byte) : (s.writeBytes a bs).reportWord = s.reportWord := rfl
@[simp] theorem writeBytes_reportAddr (s : State) (a : Nat) (bs : List Byte) : (s.writeBytes a bs).reportAddr = s.reportAddr := rfl
@[simp] theorem writeBytes_reportCount (s : State) (a : Nat) (bs : List Byte) : (s.writeBytes a bs).reportCount = s.reportCount := rfl
@[simp] theorem writeBytes_status (s : State) (a : Nat) (bs : List Byte) : (s.writeBytes a bs).status = s.status := rfl
@[simp] theorem writeBytes_rndIndex (s : State) (a : Nat) (bs : List Byte) : (s.writeBytes a bs).rndIndex = s.rndIndex := rfl
@[simp] theorem writeBytes_loadOpen (s : State) (a : Nat) (bs : List Byte) : (s.writeBytes a bs).loadOpen = s.loadOpen := rfl
@[simp] theorem writeBytes_pending (s : State) (a : Nat) (bs : List Byte) : (s.writeBytes a bs).pending = s.pending := rfl

/-! ### setScreen -/

@[simp] theorem setScreen_v (s : State) (fb : Screen) : (s.setScreen fb).v = s.v := rfl
@[simp] theorem setScreen_idx (s : State) (fb : Screen) : (s.setScreen fb).idx = s.idx := rfl
@[simp] theorem setScreen_pc (s : State) (fb : Screen) : (s.setScreen fb).pc = s.pc := rfl
@[simp] theorem setScreen_sp (s : State) (fb : Screen) : (s.setScreen fb).sp = s.sp := rfl
@[simp] theorem setScreen_stack (s : State) (fb : Screen) : (s.setScreen fb).stack = s.stack := rfl
@[simp] theorem setScreen_dt (s : State) (fb : Screen) : (s.setScreen fb).dt = s.dt := rfl
@[simp] theorem setScreen_st (s : State) (fb : Screen) : (s.setScreen fb).st = s.st := rfl
@[simp] theorem setScreen_fb (s : State) (fb : Screen) : (s.setScreen fb).fb = fb := rfl
@[simp] theorem setScreen_key (s : State) (fb : Screen) : (s.setScreen fb).key = s.key := rfl
@[simp] theorem setScreen_drawPending (s : State) (fb : Screen) : (s.setScreen fb).drawPending = true := rfl
@[simp] theorem setScreen_mem (s : State) (fb : Screen) : (s.setScreen fb).mem = s.mem := rfl
@[simp] theorem setScreen_fatalCause (s : State) (fb : Screen) : (s.setScreen fb).fatalCause = s.fatalCause := rfl
@[simp] theorem setScreen_faultPc (s : State) (fb : Screen) : (s.setScreen fb).faultPc = s.faultPc := rfl
@[simp] theorem setScreen_faultWord (s : State) (fb : Screen) : (s.setScreen fb).faultWord = s.faultWord := rfl
@[simp] theorem setScreen_faultAddr (s : State) (fb : Screen) : (s.setScreen fb).faultAddr = s.faultAddr := rfl
@[simp] theorem setScreen_reportWord (s : State) (fb : Screen) : (s.setScreen fb).reportWord = s.reportWord := rfl
@[simp] theorem setScreen_reportAddr (s : State) (fb : Screen) : (s.setScreen fb).reportAddr = s.reportAddr := rfl
@[simp] theorem setScreen_reportCount (s : State) (fb : Screen) : (s.setScreen fb).reportCount = s.reportCount := rfl
@[simp] theorem setScreen_status (s : State) (fb : Screen) : (s.setScreen fb).status = s.status := rfl
@[simp] theorem setScreen_rndIndex (s : State) (fb : Screen) : (s.setScreen fb).rndIndex = s.rndIndex := rfl
@[simp] theorem setScreen_loadOpen (s : State) (fb : Screen) : (s.setScreen fb).loadOpen = s.loadOpen := rfl
@[simp] theorem setScreen_pending (s : State) (fb : Screen) : (s.setScreen fb).pending = s.pending := rfl

/-! ### goto -/

@[simp] theorem goto_v (s : State) (w : Word) : (s.goto w).v = s.v := rfl
@[simp] theorem goto_idx (s : State) (w : Word) : (s.goto w).idx = s.idx := rfl
@[simp] theorem goto_pc (s : State) (w : Word) : (s.goto w).pc = w := rfl
@[simp] theorem goto_sp (s : State) (w : Word) : (s.goto w).sp = s.sp := rfl
@[simp] theorem goto_stack (s : State) (w : Word) : (s.goto w).stack = s.stack := rfl
@[simp] theorem goto_dt (s : State) (w : Word) : (s.goto w).dt = s.dt := rfl
@[simp] theorem goto_st (s : State) (w : Word) : (s.goto w).st = s.st := rfl
@[simp] theorem goto_fb (s : State) (w : Word) : (s.goto w).fb = s.fb := rfl
@[simp] theorem goto_key (s : State) (w : Word) : (s.goto w).key = s.key := rfl
@[simp] theorem goto_drawPending (s : State) (w : Word) : (s.goto w).drawPending = s.drawPending := rfl
@[simp] theorem goto_mem (s : State) (w : Word) : (s.goto w).mem = s.mem := rfl
@[simp] theorem goto_fatalCause (s : State) (w : Word) : (s.goto w).fatalCause = s.fatalCause := rfl
@[simp] theorem goto_faultPc (s : State) (w : Word) : (s.goto w).faultPc = s.faultPc := rfl
@[simp] theorem goto_faultWord (s : State) (w : Word) : (s.goto w).faultWord = s.faultWord := rfl
@[simp] theorem goto_faultAddr (s : State) (w : Word) : (s.goto w).faultAddr = s.faultAddr := rfl
@[simp] theorem goto_reportWord (s : State) (w : Word) : (s.goto w).reportWord = s.reportWord := rfl
@[simp] theorem goto_reportAddr (s : State) (w : Word) : (s.goto w).reportAddr = s.reportAddr := rfl
@[simp] theorem goto_reportCount (s : State) (w : Word) : (s.goto w).reportCount = s.reportCount := rfl
@[simp] theorem goto_status (s : State) (w : Word) : (s.goto w).status = .done := rfl
@[simp] theorem goto_rndIndex (s : State) (w : Word) : (s.goto w).rndIndex = s.rndIndex := rfl
@[simp] theorem goto_loadOpen (s : State) (w : Word) : (s.goto w).loadOpen = s.loadOpen := rfl
@[simp] theorem goto_pending (s : State) (w : Word) : (s.goto w).pending = s.pending := rfl

/-! ### wait -/

@[simp] theorem wait_v (s : State) : (s.wait).v = s.v := rfl
@[simp] theorem wait_idx (s : State) : (s.wait).idx = s.idx := rfl
@[simp] theorem wait_pc (s : State) : (s.wait).pc = s.pc := rfl
@[simp] theorem wait_sp (s : State) : (s.wait).sp = s.sp := rfl
@[simp] theorem wait_stack (s : State) : (s.wait).stack = s.stack := rfl
@[simp] theorem wait_dt (s : State) : (s.wait).dt = s.dt := rfl
@[simp] theorem wait_st (s : State) : (s.wait).st = s.st := rfl
@[simp] theorem wait_fb (s : State) : (s.wait).fb = s.fb := rfl
@[simp] theorem wait_key (s : State) : (s.wait).key = s.key := rfl
@[simp] theorem wait_drawPending (s : State) : (s.wait).drawPending = s.drawPending := rfl
@[simp] theorem wait_mem (s : State) : (s.wait).mem = s.mem := rfl
@[simp] theorem wait_fatalCause (s : State) : (s.wait).fatalCause = s.fatalCause := rfl
@[simp] theorem wait_faultPc (s : State) : (s.wait).faultPc = s.faultPc := rfl
@[simp] theorem wait_faultWord (s : State) : (s.wait).faultWord = s.faultWord := rfl
@[simp] theorem wait_faultAddr (s : State) : (s.wait).faultAddr = s.faultAddr := rfl
@[simp] theorem wait_reportWord (s : State) : (s.wait).reportWord = s.reportWord := rfl
@[simp] theorem wait_reportAddr (s : State) : (s.wait).reportAddr = s.reportAddr := rfl
@[simp] theorem wait_reportCount (s : State) : (s.wait).reportCount = s.reportCount := rfl
@[simp] theorem wait_status (s : State) : (s.wait).status = .waiting := rfl
@[simp] theorem wait_rndIndex (s : State) : (s.wait).rndIndex = s.rndIndex := rfl
@[simp] theorem wait_loadOpen (s : State) : (s.wait).loadOpen = s.loadOpen := rfl
@[simp] theorem wait_pending (s : State) : (s.wait).pending = s.pending := rfl

/-! ### takeFatal -/

@[simp] theorem takeFatal_v (s : State) (c : Cause) (w : Word) (a : Nat) : (s.takeFatal c w a).v = s.v := rfl
@[simp] theorem takeFatal_idx (s : State) (c : Cause) (w : Word) (a : Nat) : (s.takeFatal c w a).idx = s.idx := rfl
@[simp] theorem takeFatal_pc (s : State) (c : Cause) (w : Word) (a : Nat) : (s.takeFatal c w a).pc = s.pc := rfl
@[simp] theorem takeFatal_sp (s : State) (c : Cause) (w : Word) (a : Nat) : (s.takeFatal c w a).sp = s.sp := rfl
@[simp] theorem takeFatal_stack (s : State) (c : Cause) (w : Word) (a : Nat) : (s.takeFatal c w a).stack = s.stack := rfl
@[simp] theorem takeFatal_dt (s : State) (c : Cause) (w : Word) (a : Nat) : (s.takeFatal c w a).dt = s.dt := rfl
@[simp] theorem takeFatal_st (s : State) (c : Cause) (w : Word) (a : Nat) : (s.takeFatal c w a).st = s.st := rfl
@[simp] theorem takeFatal_fb (s : State) (c : Cause) (w : Word) (a : Nat) : (s.takeFatal c w a).fb = s.fb := rfl
@[simp] theorem takeFatal_key (s : State) (c : Cause) (w : Word) (a : Nat) : (s.takeFatal c w a).key = s.key := rfl
@[simp] theorem takeFatal_drawPending (s : State) (c : Cause) (w : Word) (a : Nat) : (s.takeFatal c w a).drawPending = s.drawPending := rfl
@[simp] theorem takeFatal_mem (s : State) (c : Cause) (w : Word) (a : Nat) : (s.takeFatal c w a).mem = s.mem := rfl
@[simp] theorem takeFatal_fatalCause (s : State) (c : Cause) (w : Word) (a : Nat) : (s.takeFatal c w a).fatalCause = c := rfl
@[simp] theorem takeFatal_faultPc (s : State) (c : Cause) (w : Word) (a : Nat) : (s.takeFatal c w a).faultPc = s.pc := rfl
@[simp] theorem takeFatal_faultWord (s : State) (c : Cause) (w : Word) (a : Nat) : (s.takeFatal c w a).faultWord = w := rfl
@[simp] theorem takeFatal_faultAddr (s : State) (c : Cause) (w : Word) (a : Nat) : (s.takeFatal c w a).faultAddr = BitVec.ofNat 17 a := rfl
@[simp] theorem takeFatal_reportWord (s : State) (c : Cause) (w : Word) (a : Nat) : (s.takeFatal c w a).reportWord = s.reportWord := rfl
@[simp] theorem takeFatal_reportAddr (s : State) (c : Cause) (w : Word) (a : Nat) : (s.takeFatal c w a).reportAddr = s.reportAddr := rfl
@[simp] theorem takeFatal_reportCount (s : State) (c : Cause) (w : Word) (a : Nat) : (s.takeFatal c w a).reportCount = s.reportCount := rfl
@[simp] theorem takeFatal_status (s : State) (c : Cause) (w : Word) (a : Nat) : (s.takeFatal c w a).status = .fatal := rfl
@[simp] theorem takeFatal_rndIndex (s : State) (c : Cause) (w : Word) (a : Nat) : (s.takeFatal c w a).rndIndex = s.rndIndex := rfl
@[simp] theorem takeFatal_loadOpen (s : State) (c : Cause) (w : Word) (a : Nat) : (s.takeFatal c w a).loadOpen = s.loadOpen := rfl
@[simp] theorem takeFatal_pending (s : State) (c : Cause) (w : Word) (a : Nat) : (s.takeFatal c w a).pending = s.pending := rfl

/-! ### report -/

@[simp] theorem report_v (s : State) (w : Word) : (s.report w).v = s.v := rfl
@[simp] theorem report_idx (s : State) (w : Word) : (s.report w).idx = s.idx := rfl
@[simp] theorem report_pc (s : State) (w : Word) : (s.report w).pc = s.pc + 2#16 := rfl
@[simp] theorem report_sp (s : State) (w : Word) : (s.report w).sp = s.sp := rfl
@[simp] theorem report_stack (s : State) (w : Word) : (s.report w).stack = s.stack := rfl
@[simp] theorem report_dt (s : State) (w : Word) : (s.report w).dt = s.dt := rfl
@[simp] theorem report_st (s : State) (w : Word) : (s.report w).st = s.st := rfl
@[simp] theorem report_fb (s : State) (w : Word) : (s.report w).fb = s.fb := rfl
@[simp] theorem report_key (s : State) (w : Word) : (s.report w).key = s.key := rfl
@[simp] theorem report_drawPending (s : State) (w : Word) : (s.report w).drawPending = s.drawPending := rfl
@[simp] theorem report_mem (s : State) (w : Word) : (s.report w).mem = s.mem := rfl
@[simp] theorem report_fatalCause (s : State) (w : Word) : (s.report w).fatalCause = s.fatalCause := rfl
@[simp] theorem report_faultPc (s : State) (w : Word) : (s.report w).faultPc = s.faultPc := rfl
@[simp] theorem report_faultWord (s : State) (w : Word) : (s.report w).faultWord = s.faultWord := rfl
@[simp] theorem report_faultAddr (s : State) (w : Word) : (s.report w).faultAddr = s.faultAddr := rfl
@[simp] theorem report_reportWord (s : State) (w : Word) : (s.report w).reportWord = w := rfl
@[simp] theorem report_reportAddr (s : State) (w : Word) : (s.report w).reportAddr = s.pc := rfl
@[simp] theorem report_reportCount (s : State) (w : Word) : (s.report w).reportCount = s.reportCount + 1 := rfl
@[simp] theorem report_status (s : State) (w : Word) : (s.report w).status = .unrecognised := rfl
@[simp] theorem report_rndIndex (s : State) (w : Word) : (s.report w).rndIndex = s.rndIndex := rfl
@[simp] theorem report_loadOpen (s : State) (w : Word) : (s.report w).loadOpen = s.loadOpen := rfl
@[simp] theorem report_pending (s : State) (w : Word) : (s.report w).pending = s.pending := rfl

/-! ### drawRandom -/

@[simp] theorem drawRandom_v (s : State) : (s.drawRandom.2).v = s.v := rfl
@[simp] theorem drawRandom_idx (s : State) : (s.drawRandom.2).idx = s.idx := rfl
@[simp] theorem drawRandom_pc (s : State) : (s.drawRandom.2).pc = s.pc := rfl
@[simp] theorem drawRandom_sp (s : State) : (s.drawRandom.2).sp = s.sp := rfl
@[simp] theorem drawRandom_stack (s : State) : (s.drawRandom.2).stack = s.stack := rfl
@[simp] theorem drawRandom_dt (s : State) : (s.drawRandom.2).dt = s.dt := rfl
@[simp] theorem drawRandom_st (s : State) : (s.drawRandom.2).st = s.st := rfl
@[simp] theorem drawRandom_fb (s : State) : (s.drawRandom.2).fb = s.fb := rfl
@[simp] theorem drawRandom_key (s : State) : (s.drawRandom.2).key = s.key := rfl
@[simp] theorem drawRandom_drawPending (s : State) : (s.drawRandom.2).drawPending = s.drawPending := rfl
@[simp] theorem drawRandom_mem (s : State) : (s.drawRandom.2).mem = s.mem := rfl
@[simp] theorem drawRandom_fatalCause (s : State) : (s.drawRandom.2).fatalCause = s.fatalCause := rfl
@[simp] theorem drawRandom_faultPc (s : State) : (s.drawRandom.2).faultPc = s.faultPc := rfl
@[simp] theorem drawRandom_faultWord (s : State) : (s.drawRandom.2).faultWord = s.faultWord := rfl
@[simp] theorem drawRandom_faultAddr (s : State) : (s.drawRandom.2).faultAddr = s.faultAddr := rfl
@[simp] theorem drawRandom_reportWord (s : State) : (s.drawRandom.2).reportWord = s.reportWord := rfl
@[simp] theorem drawRandom_reportAddr (s : State) : (s.drawRandom.2).reportAddr = s.reportAddr := rfl
@[simp] theorem drawRandom_reportCount (s : State) : (s.drawRandom.2).reportCount = s.reportCount := rfl
@[simp] theorem drawRandom_status (s : State) : (s.drawRandom.2).status = s.status := rfl
@[simp] theorem drawRandom_rndIndex (s : State) : (s.drawRandom.2).rndIndex = s.rndIndex + 1 := rfl
@[simp] theorem drawRandom_loadOpen (s : State) : (s.drawRandom.2).loadOpen = s.loadOpen := rfl
@[simp] theorem drawRandom_pending (s : State) : (s.drawRandom.2).pending = s.pending := rfl

/-! ### tick -/

@[simp] theorem tick_v (s : State) : (s.tick).v = s.v := rfl
@[simp] theorem tick_idx (s : State) : (s.tick).idx = s.idx := rfl
@[simp] theorem tick_pc (s : State) : (s.tick).pc = s.pc := rfl
@[simp] theorem tick_sp (s : State) : (s.tick).sp = s.sp := rfl
@[simp] theorem tick_stack (s : State) : (s.tick).stack = s.stack := rfl
@[simp] theorem tick_dt (s : State) : (s.tick).dt = countDown s.dt := rfl
@[simp] theorem tick_st (s : State) : (s.tick).st = countDown s.st := rfl
@[simp] theorem tick_fb (s : State) : (s.tick).fb = s.fb := rfl
@[simp] theorem tick_key (s : State) : (s.tick).key = s.key := rfl
@[simp] theorem tick_drawPending (s : State) : (s.tick).drawPending = s.drawPending := rfl
@[simp] theorem tick_mem (s : State) : (s.tick).mem = s.mem := rfl
@[simp] theorem tick_fatalCause (s : State) : (s.tick).fatalCause = s.fatalCause := rfl
@[simp] theorem tick_faultPc (s : State) : (s.tick).faultPc = s.faultPc := rfl
@[simp] theorem tick_faultWord (s : State) : (s.tick).faultWord = s.faultWord := rfl
@[simp] theorem tick_faultAddr (s : State) : (s.tick).faultAddr = s.faultAddr := rfl
@[simp] theorem tick_reportWord (s : State) : (s.tick).reportWord = s.reportWord := rfl
@[simp] theorem tick_reportAddr (s : State) : (s.tick).reportAddr = s.reportAddr := rfl
@[simp] theorem tick_reportCount (s : State) : (s.tick).reportCount = s.reportCount := rfl
@[simp] theorem tick_status (s : State) : (s.tick).status = s.status := rfl
@[simp] theorem tick_rndIndex (s : State) : (s.tick).rndIndex = s.rndIndex := rfl
@[simp] theorem tick_loadOpen (s : State) : (s.tick).loadOpen = s.loadOpen := rfl
@[simp] theorem tick_pending (s : State) : (s.tick).pending = s.pending := rfl

/-! ### keyWrite -/

@[simp] theorem keyWrite_v (s : State) (k : Nibble) (d : Bool) : (s.keyWrite k d).v = s.v := rfl
@[simp] theorem keyWrite_idx (s : State) (k : Nibble) (d : Bool) : (s.keyWrite k d).idx = s.idx := rfl
@[simp] theorem keyWrite_pc (s : State) (k : Nibble) (d : Bool) : (s.keyWrite k d).pc = s.pc := rfl
@[simp] theorem keyWrite_sp (s : State) (k : Nibble) (d : Bool) : (s.keyWrite k d).sp = s.sp := rfl
@[simp] theorem keyWrite_stack (s : State) (k : Nibble) (d : Bool) : (s.keyWrite k d).stack = s.stack := rfl
@[simp] theorem keyWrite_dt (s : State) (k : Nibble) (d : Bool) : (s.keyWrite k d).dt = s.dt := rfl
@[simp] theorem keyWrite_st (s : State) (k : Nibble) (d : Bool) : (s.keyWrite k d).st = s.st := rfl
@[simp] theorem keyWrite_fb (s : State) (k : Nibble) (d : Bool) : (s.keyWrite k d).fb = s.fb := rfl
@[simp] theorem keyWrite_key (s : State) (k : Nibble) (d : Bool) : (s.keyWrite k d).key = s.key.set k.toNat d k.isLt := rfl
@[simp] theorem keyWrite_drawPending (s : State) (k : Nibble) (d : Bool) : (s.keyWrite k d).drawPending = s.drawPending := rfl
@[simp] theorem keyWrite_mem (s : State) (k : Nibble) (d : Bool) : (s.keyWrite k d).mem = s.mem := rfl
@[simp] theorem keyWrite_fatalCause (s : State) (k : Nibble) (d : Bool) : (s.keyWrite k d).fatalCause = s.fatalCause := rfl
@[simp] theorem keyWrite_faultPc (s : State) (k : Nibble) (d : Bool) : (s.keyWrite k d).faultPc = s.faultPc := rfl
@[simp] theorem keyWrite_faultWord (s : State) (k : Nibble) (d : Bool) : (s.keyWrite k d).faultWord = s.faultWord := rfl
@[simp] theorem keyWrite_faultAddr (s : State) (k : Nibble) (d : Bool) : (s.keyWrite k d).faultAddr = s.faultAddr := rfl
@[simp] theorem keyWrite_reportWord (s : State) (k : Nibble) (d : Bool) : (s.keyWrite k d).reportWord = s.reportWord := rfl
@[simp] theorem keyWrite_reportAddr (s : State) (k : Nibble) (d : Bool) : (s.keyWrite k d).reportAddr = s.reportAddr := rfl
@[simp] theorem keyWrite_reportCount (s : State) (k : Nibble) (d : Bool) : (s.keyWrite k d).reportCount = s.reportCount := rfl
@[simp] theorem keyWrite_status (s : State) (k : Nibble) (d : Bool) : (s.keyWrite k d).status = s.status := rfl
@[simp] theorem keyWrite_rndIndex (s : State) (k : Nibble) (d : Bool) : (s.keyWrite k d).rndIndex = s.rndIndex := rfl
@[simp] theorem keyWrite_loadOpen (s : State) (k : Nibble) (d : Bool) : (s.keyWrite k d).loadOpen = s.loadOpen := rfl
@[simp] theorem keyWrite_pending (s : State) (k : Nibble) (d : Bool) : (s.keyWrite k d).pending = s.pending := rfl

/-! ### frameAck -/

@[simp] theorem frameAck_v (s : State) : (s.frameAck).v = s.v := rfl
@[simp] theorem frameAck_idx (s : State) : (s.frameAck).idx = s.idx := rfl
@[simp] theorem frameAck_pc (s : State) : (s.frameAck).pc = s.pc := rfl
@[simp] theorem frameAck_sp (s : State) : (s.frameAck).sp = s.sp := rfl
@[simp] theorem frameAck_stack (s : State) : (s.frameAck).stack = s.stack := rfl
@[simp] theorem frameAck_dt (s : State) : (s.frameAck).dt = s.dt := rfl
@[simp] theorem frameAck_st (s : State) : (s.frameAck).st = s.st := rfl
@[simp] theorem frameAck_fb (s : State) : (s.frameAck).fb = s.fb := rfl
@[simp] theorem frameAck_key (s : State) : (s.frameAck).key = s.key := rfl
@[simp] theorem frameAck_drawPending (s : State) : (s.frameAck).drawPending = false := rfl
@[simp] theorem frameAck_mem (s : State) : (s.frameAck).mem = s.mem := rfl
@[simp] theorem frameAck_fatalCause (s : State) : (s.frameAck).fatalCause = s.fatalCause := rfl
@[simp] theorem frameAck_faultPc (s : State) : (s.frameAck).faultPc = s.faultPc := rfl
@[simp] theorem frameAck_faultWord (s : State) : (s.frameAck).faultWord = s.faultWord := rfl
@[simp] theorem frameAck_faultAddr (s : State) : (s.frameAck).faultAddr = s.faultAddr := rfl
@[simp] theorem frameAck_reportWord (s : State) : (s.frameAck).reportWord = s.reportWord := rfl
@[simp] theorem frameAck_reportAddr (s : State) : (s.frameAck).reportAddr = s.reportAddr := rfl
@[simp] theorem frameAck_reportCount (s : State) : (s.frameAck).reportCount = s.reportCount := rfl
@[simp] theorem frameAck_status (s : State) : (s.frameAck).status = s.status := rfl
@[simp] theorem frameAck_rndIndex (s : State) : (s.frameAck).rndIndex = s.rndIndex := rfl
@[simp] theorem frameAck_loadOpen (s : State) : (s.frameAck).loadOpen = s.loadOpen := rfl
@[simp] theorem frameAck_pending (s : State) : (s.frameAck).pending = s.pending := rfl

/-! ### closeLoad -/

@[simp] theorem closeLoad_v (s : State) : (s.closeLoad).v = s.v := rfl
@[simp] theorem closeLoad_idx (s : State) : (s.closeLoad).idx = s.idx := rfl
@[simp] theorem closeLoad_pc (s : State) : (s.closeLoad).pc = s.pc := rfl
@[simp] theorem closeLoad_sp (s : State) : (s.closeLoad).sp = s.sp := rfl
@[simp] theorem closeLoad_stack (s : State) : (s.closeLoad).stack = s.stack := rfl
@[simp] theorem closeLoad_dt (s : State) : (s.closeLoad).dt = s.dt := rfl
@[simp] theorem closeLoad_st (s : State) : (s.closeLoad).st = s.st := rfl
@[simp] theorem closeLoad_fb (s : State) : (s.closeLoad).fb = s.fb := rfl
@[simp] theorem closeLoad_key (s : State) : (s.closeLoad).key = s.key := rfl
@[simp] theorem closeLoad_drawPending (s : State) : (s.closeLoad).drawPending = s.drawPending := rfl
@[simp] theorem closeLoad_mem (s : State) : (s.closeLoad).mem = s.mem := rfl
@[simp] theorem closeLoad_fatalCause (s : State) : (s.closeLoad).fatalCause = s.fatalCause := rfl
@[simp] theorem closeLoad_faultPc (s : State) : (s.closeLoad).faultPc = s.faultPc := rfl
@[simp] theorem closeLoad_faultWord (s : State) : (s.closeLoad).faultWord = s.faultWord := rfl
@[simp] theorem closeLoad_faultAddr (s : State) : (s.closeLoad).faultAddr = s.faultAddr := rfl
@[simp] theorem closeLoad_reportWord (s : State) : (s.closeLoad).reportWord = s.reportWord := rfl
@[simp] theorem closeLoad_reportAddr (s : State) : (s.closeLoad).reportAddr = s.reportAddr := rfl
@[simp] theorem closeLoad_reportCount (s : State) : (s.closeLoad).reportCount = s.reportCount := rfl
@[simp] theorem closeLoad_status (s : State) : (s.closeLoad).status = s.status := rfl
@[simp] theorem closeLoad_rndIndex (s : State) : (s.closeLoad).rndIndex = s.rndIndex := rfl
@[simp] theorem closeLoad_loadOpen (s : State) : (s.closeLoad).loadOpen = false := rfl
@[simp] theorem closeLoad_pending (s : State) : (s.closeLoad).pending = s.pending := rfl

/-! ### stayHalted -/

@[simp] theorem stayHalted_v (s : State) : (s.stayHalted).v = s.v := rfl
@[simp] theorem stayHalted_idx (s : State) : (s.stayHalted).idx = s.idx := rfl
@[simp] theorem stayHalted_pc (s : State) : (s.stayHalted).pc = s.pc := rfl
@[simp] theorem stayHalted_sp (s : State) : (s.stayHalted).sp = s.sp := rfl
@[simp] theorem stayHalted_stack (s : State) : (s.stayHalted).stack = s.stack := rfl
@[simp] theorem stayHalted_dt (s : State) : (s.stayHalted).dt = s.dt := rfl
@[simp] theorem stayHalted_st (s : State) : (s.stayHalted).st = s.st := rfl
@[simp] theorem stayHalted_fb (s : State) : (s.stayHalted).fb = s.fb := rfl
@[simp] theorem stayHalted_key (s : State) : (s.stayHalted).key = s.key := rfl
@[simp] theorem stayHalted_drawPending (s : State) : (s.stayHalted).drawPending = s.drawPending := rfl
@[simp] theorem stayHalted_mem (s : State) : (s.stayHalted).mem = s.mem := rfl
@[simp] theorem stayHalted_fatalCause (s : State) : (s.stayHalted).fatalCause = s.fatalCause := rfl
@[simp] theorem stayHalted_faultPc (s : State) : (s.stayHalted).faultPc = s.faultPc := rfl
@[simp] theorem stayHalted_faultWord (s : State) : (s.stayHalted).faultWord = s.faultWord := rfl
@[simp] theorem stayHalted_faultAddr (s : State) : (s.stayHalted).faultAddr = s.faultAddr := rfl
@[simp] theorem stayHalted_reportWord (s : State) : (s.stayHalted).reportWord = s.reportWord := rfl
@[simp] theorem stayHalted_reportAddr (s : State) : (s.stayHalted).reportAddr = s.reportAddr := rfl
@[simp] theorem stayHalted_reportCount (s : State) : (s.stayHalted).reportCount = s.reportCount := rfl
@[simp] theorem stayHalted_status (s : State) : (s.stayHalted).status = .fatal := rfl
@[simp] theorem stayHalted_rndIndex (s : State) : (s.stayHalted).rndIndex = s.rndIndex := rfl
@[simp] theorem stayHalted_loadOpen (s : State) : (s.stayHalted).loadOpen = s.loadOpen := rfl
@[simp] theorem stayHalted_pending (s : State) : (s.stayHalted).pending = s.pending := rfl

/-! ### Reads of one register or byte through an update that does not touch it -/

@[simp] theorem setReg_readByte (s : State) (x : Nibble) (b : Byte) (q : Nat) : (s.setReg x b).readByte q = s.readByte q := rfl
@[simp] theorem setFlag_readByte (s : State) (f : Bool) (q : Nat) : (s.setFlag f).readByte q = s.readByte q := rfl
@[simp] theorem setFlagged_readByte (s : State) (x : Nibble) (r : Flagged) (q : Nat) : (s.setFlagged x r).readByte q = s.readByte q := rfl
@[simp] theorem setIdx_reg (s : State) (w : Word) (r : Nibble) : (s.setIdx w).reg r = s.reg r := rfl
@[simp] theorem setIdx_readByte (s : State) (w : Word) (q : Nat) : (s.setIdx w).readByte q = s.readByte q := rfl
@[simp] theorem setDelay_reg (s : State) (b : Byte) (r : Nibble) : (s.setDelay b).reg r = s.reg r := rfl
@[simp] theorem setDelay_readByte (s : State) (b : Byte) (q : Nat) : (s.setDelay b).readByte q = s.readByte q := rfl
@[simp] theorem setSound_reg (s : State) (b : Byte) (r : Nibble) : (s.setSound b).reg r = s.reg r := rfl
@[simp] theorem setSound_readByte (s : State) (b : Byte) (q : Nat) : (s.setSound b).readByte q = s.readByte q := rfl
@[simp] theorem loadRegs_readByte (s : State) (bs : List Byte) (q : Nat) : (s.loadRegs bs).readByte q = s.readByte q := by dsimp only [State.readByte, State.loadRegs]
@[simp] theorem writeBytes_reg (s : State) (a : Nat) (bs : List Byte) (r : Nibble) : (s.writeBytes a bs).reg r = s.reg r := rfl
@[simp] theorem setScreen_reg (s : State) (fb : Screen) (r : Nibble) : (s.setScreen fb).reg r = s.reg r := rfl
@[simp] theorem setScreen_readByte (s : State) (fb : Screen) (q : Nat) : (s.setScreen fb).readByte q = s.readByte q := rfl
@[simp] theorem goto_reg (s : State) (w : Word) (r : Nibble) : (s.goto w).reg r = s.reg r := rfl
@[simp] theorem goto_readByte (s : State) (w : Word) (q : Nat) : (s.goto w).readByte q = s.readByte q := rfl
@[simp] theorem wait_reg (s : State) (r : Nibble) : (s.wait).reg r = s.reg r := rfl
@[simp] theorem wait_readByte (s : State) (q : Nat) : (s.wait).readByte q = s.readByte q := rfl
@[simp] theorem takeFatal_reg (s : State) (c : Cause) (w : Word) (a : Nat) (r : Nibble) : (s.takeFatal c w a).reg r = s.reg r := rfl
@[simp] theorem takeFatal_readByte (s : State) (c : Cause) (w : Word) (a : Nat) (q : Nat) : (s.takeFatal c w a).readByte q = s.readByte q := rfl
@[simp] theorem report_reg (s : State) (w : Word) (r : Nibble) : (s.report w).reg r = s.reg r := rfl
@[simp] theorem report_readByte (s : State) (w : Word) (q : Nat) : (s.report w).readByte q = s.readByte q := rfl
@[simp] theorem drawRandom_reg (s : State) (r : Nibble) : (s.drawRandom.2).reg r = s.reg r := rfl
@[simp] theorem drawRandom_readByte (s : State) (q : Nat) : (s.drawRandom.2).readByte q = s.readByte q := rfl
@[simp] theorem tick_reg (s : State) (r : Nibble) : (s.tick).reg r = s.reg r := rfl
@[simp] theorem tick_readByte (s : State) (q : Nat) : (s.tick).readByte q = s.readByte q := rfl
@[simp] theorem keyWrite_reg (s : State) (k : Nibble) (d : Bool) (r : Nibble) : (s.keyWrite k d).reg r = s.reg r := rfl
@[simp] theorem keyWrite_readByte (s : State) (k : Nibble) (d : Bool) (q : Nat) : (s.keyWrite k d).readByte q = s.readByte q := rfl
@[simp] theorem frameAck_reg (s : State) (r : Nibble) : (s.frameAck).reg r = s.reg r := rfl
@[simp] theorem frameAck_readByte (s : State) (q : Nat) : (s.frameAck).readByte q = s.readByte q := rfl
@[simp] theorem closeLoad_reg (s : State) (r : Nibble) : (s.closeLoad).reg r = s.reg r := rfl
@[simp] theorem closeLoad_readByte (s : State) (q : Nat) : (s.closeLoad).readByte q = s.readByte q := rfl
@[simp] theorem stayHalted_reg (s : State) (r : Nibble) : (s.stayHalted).reg r = s.reg r := rfl
@[simp] theorem stayHalted_readByte (s : State) (q : Nat) : (s.stayHalted).readByte q = s.readByte q := rfl

/-! ### The composite updates -/

@[simp] theorem next_eq_goto (s : State) : s.next = s.goto (s.pc + 2#16) := rfl
@[simp] theorem skipIf_eq_goto (s : State) (c : Bool) : s.skipIf c = s.goto (s.pc + if c then 4#16 else 2#16) := rfl
@[simp] theorem takeDataOob_eq (s : State) (i : Instr) :
    s.takeDataOob i = s.takeFatal .dataOob (encode i) (firstBad s.idx.toNat) := rfl
@[simp] theorem takeFetchOob_eq (s : State) : s.takeFetchOob = s.takeFatal .fetchOob 0#16 (firstBad s.pc.toNat) := rfl
@[simp] theorem drawRandom_fst (s : State) : s.drawRandom.1 = Config.rnd s.rndIndex := rfl

end Sys2Proof.Machine
end

