-- ==== Sys2Proof/Laws/Ops.lean ====
section
/-! SUPPORT. What each shared operation does, said once: reads of one register, byte or key after an update, the
stack, the bounds test, the key search, and the ways a cycle can go. -/

namespace Sys2Proof.Machine

/-! ### General registers -/

theorem reg_of_v_eq {s t : State} (h : t.v = s.v) (r : Nibble) : t.reg r = s.reg r := by simp [State.reg, h]

@[simp] theorem reg_setReg (s : State) (x r : Nibble) (b : Byte) :
    (s.setReg x b).reg r = if r = x then b else s.reg r := by
  simp only [State.reg, State.setReg, Vector.getElem_set]
  by_cases h : r = x
  · simp [h]
  · rw [if_neg (fun e => h (BitVec.eq_of_toNat_eq e.symm)), if_neg h]

@[simp] theorem reg_setFlag (s : State) (r : Nibble) (f : Bool) :
    (s.setFlag f).reg r = if r = 0xF#4 then (if f then 1#8 else 0#8) else s.reg r := reg_setReg s _ r _

/-- The flag is what remains in VF; any other register keeps its result (R28). -/
@[simp] theorem reg_setFlagged (s : State) (x r : Nibble) (f : Flagged) :
    (s.setFlagged x f).reg r =
      if r = 0xF#4 then (if f.flag then 1#8 else 0#8) else if r = x then f.result else s.reg r := by
  rw [State.setFlagged, reg_setFlag, reg_setReg]

@[simp] theorem reg_loadRegs (s : State) (bs : List Byte) (r : Nibble) :
    (s.loadRegs bs).reg r = bs.getD r.toNat (s.reg r) := by
  simp [State.reg, State.loadRegs, loadedRegs]

theorem regsUpTo_length (s : State) (x : Nibble) : (s.regsUpTo x).length = x.toNat + 1 := by
  have := x.isLt; simp [State.regsUpTo]; omega

theorem getElem_regsUpTo (s : State) (x : Nibble) (k : Nat) (h : k < (s.regsUpTo x).length) :
    (s.regsUpTo x)[k] = s.reg (BitVec.ofNat 4 k) := by
  have hk : k < 16 := by have := x.isLt; rw [regsUpTo_length] at h; omega
  simp only [State.regsUpTo, State.reg, List.getElem_take, Vector.getElem_toList, BitVec.toNat_ofNat]
  congr 1; omega

/-! ### Memory -/

theorem readByte_of_mem_eq {s t : State} (h : t.mem = s.mem) (a : Nat) : t.readByte a = s.readByte a := by
  simp [State.readByte, h]

theorem readByte_writeBytes (s : State) (a a' : Nat) (bs : List Byte) :
    (s.writeBytes a bs).readByte a' =
      if h : a ≤ a' ∧ a' < a + bs.length then bs[a' - a]'(by omega) else s.readByte a' :=
  Memory.read_writeBytes s.mem a a' bs

@[simp] theorem readBytes_length (s : State) (a n : Nat) : (s.readBytes a n).length = n :=
  Memory.length_readBytes s.mem a n

theorem getElem_readBytes (s : State) (a n k : Nat) (h : k < (s.readBytes a n).length) :
    (s.readBytes a n)[k] = s.readByte (a + k) := Memory.getElem_readBytes s.mem a n k h

/-- The bounds test: an access of no bytes is in range, any other when its last byte is (R69). -/
theorem inMemory_iff (a len : Nat) : inMemory a len = true ↔ len = 0 ∨ a + len ≤ 4096 := by
  unfold inMemory; rw [Bool.or_eq_true, beq_iff_eq, decide_eq_true_iff]; rfl

theorem firstBad_eq (a : Nat) : firstBad a = max a 4096 := rfl

/-- fault_addr is wide enough for the address it latches. -/
theorem faultAddr_toNat (w : Word) : (BitVec.ofNat 17 (firstBad w.toNat)).toNat = max w.toNat 4096 := by
  have := w.isLt; rw [firstBad_eq, BitVec.toNat_ofNat, Nat.mod_eq_of_lt (by omega)]

theorem fetchable_iff (s : State) : s.fetchable = true ↔ s.pc.toNat ≤ 4094 := by
  rw [State.fetchable, inMemory_iff]; omega

/-! ### The call stack -/

/-- A push with room: the address goes to `stack[SP]`, SP goes up by one, nothing else changes (R151). -/
theorem push_of_room (s : State) (w : Word) (h : s.sp.val < 16) :
    s.push w = some { s with stack := s.stack.set s.sp.val w h, sp := ⟨s.sp.val + 1, by omega⟩ } := by
  simp [State.push, h]

theorem push_of_full (s : State) (w : Word) (h : s.sp.val = 16) : s.push w = none := by simp [State.push, h]

/-- A pop of a stack in use: SP goes down by one, the newest entry comes back, nothing else changes (R141). -/
theorem pop_of_used (s : State) (h : 0 < s.sp.val) :
    s.pop = some (s.stack[s.sp.val - 1]'(by omega), { s with sp := ⟨s.sp.val - 1, by omega⟩ }) := by
  simp [State.pop, h]

theorem pop_of_empty (s : State) (h : s.sp.val = 0) : s.pop = none := by simp [State.pop, h]

/-! ### The keypad -/

/-- No key is found exactly when every key is up (R241). -/
theorem lowestKey_eq_none (s : State) : s.lowestKey = none ↔ ∀ k : Fin 16, s.key[k] = false := by
  simp [State.lowestKey, List.find?_eq_none]

theorem find_finRange {n : Nat} (p : Fin n → Bool) (k : Fin n) (h : (List.finRange n).find? p = some k) :
    p k = true ∧ ∀ j : Fin n, j < k → p j = false := by
  rw [List.find?_eq_some_iff_getElem] at h
  obtain ⟨hp, i, hi, hik, hlt⟩ := h
  refine ⟨hp, fun j hj => ?_⟩
  have hk : k.val = i := by rw [← hik]; simp
  have := hlt j.val (by rw [← hk]; exact hj)
  simpa using this

/-- The key found is down, and every lower-numbered key is up (R241, decision D6). -/
theorem lowestKey_eq_some (s : State) (k : Fin 16) (h : s.lowestKey = some k) :
    s.key[k] = true ∧ ∀ j : Fin 16, j < k → s.key[j] = false := find_finRange _ k h

/-! ### The ways a cycle and a step can go (R129, R310) -/

/-- Everything one cycle can do. -/
theorem cycle_cases (s : State) :
    (s.halted = true ∧ cycle s = .next s.stayHalted) ∨
    (s.halted = false ∧ s.fetchable = false ∧ cycle s = .next s.takeFetchOob) ∨
    (s.halted = false ∧ s.fetchable = true ∧ ∃ i, decodeWord s.fetchWord = .ok i ∧ cycle s = exec i s) ∨
    (s.halted = false ∧ s.fetchable = true ∧ ∃ r, decodeWord s.fetchWord = .error r ∧
      cycle s = .next (s.report s.fetchWord)) := by
  unfold cycle
  cases hh : s.halted
  · cases hf : s.fetchable
    · simp
    · cases hd : decodeWord s.fetchWord <;> simp
  · simp

/-- Everything taking the host's next operation can do. -/
theorem takeOp_cases (s : State) :
    (s.pending = [] ∧ s.takeOp = (.step, s)) ∨
    (∃ op rest, s.pending = op :: rest ∧ s.takeOp = (op, { s with pending := rest })) := by
  unfold State.takeOp
  cases h : s.pending with
  | nil => simp
  | cons op rest => simp

end Sys2Proof.Machine
end

