-- ==== Sys2Proof/Laws/Draw.lean ====
section
/-! SUPPORT. The framebuffer write controller: one toggle, and one sprite row, pixel by pixel. -/

namespace Sys2Proof.Machine

/-- A toggle inverts its pixel and leaves every other one alone (R212). -/
theorem pixel_toggle (fb : Screen) (r r' : Fin 32) (c c' : Fin 64) :
    (fb.toggle r c).pixel r' c' = if r' = r ∧ c' = c then !fb.pixel r c else fb.pixel r' c' := by
  simp only [Screen.pixel, Screen.toggle, Fin.getElem_fin, Vector.getElem_set]
  by_cases hr : r' = r
  · subst hr
    simp only [if_true, true_and, Vector.getElem_set]
    by_cases hc : c' = c
    · simp [hc]
    · rw [if_neg (fun e => hc (Fin.ext e.symm)), if_neg hc]
  · have hne : r.val ≠ r'.val := fun e => hr (Fin.ext e.symm)
    simp [hr, hne]

/-- How far column `c` lies to the right of the sprite's left edge, around the edge of the screen. -/
def colOffset (vx : Byte) (c : Fin 64) : Nat := (c.val + 256 - vx.toNat) % 64

theorem colOffset_eq_iff (vx : Byte) (c : Fin 64) (m : Nat) (hm : m < 64) :
    colOffset vx c = m ↔ c = wrapCol (vx.toNat + m) := by
  have := vx.isLt; have := c.isLt
  simp only [colOffset, wrapCol, Fin.ext_iff]; omega

/-- The first `m` columns of a sprite row, as a fold. -/
theorem drawBits_spec (vx vy : Byte) (row : Nat) (b : Byte) (p : Screen × Bool) (m : Nat) (hm : m ≤ 8) :
    (∀ r c, ((List.range m).foldl (drawBit vx vy row b) p).1.pixel r c =
      (p.1.pixel r c ^^ (decide (r = wrapRow (vy.toNat + row)) && decide (colOffset vx c < m) &&
        b.getLsbD (7 - colOffset vx c)))) ∧
    (((List.range m).foldl (drawBit vx vy row b) p).2 = true ↔ p.2 = true ∨
      ∃ c, colOffset vx c < m ∧ b.getLsbD (7 - colOffset vx c) = true ∧
        p.1.pixel (wrapRow (vy.toNat + row)) c = true) := by
  induction m with
  | zero => simp
  | succ m ih =>
    obtain ⟨ih1, ih2⟩ := ih (by omega)
    rw [List.range_succ, List.foldl_append]
    generalize (List.range m).foldl (drawBit vx vy row b) p = q at ih1 ih2
    have hcol : ∀ c, colOffset vx c < m + 1 ↔ colOffset vx c < m ∨ c = wrapCol (vx.toNat + m) := fun c => by
      rw [← colOffset_eq_iff vx c m (by omega)]; omega
    have hself := (colOffset_eq_iff vx (wrapCol (vx.toNat + m)) m (by omega)).2 rfl
    simp only [List.foldl_cons, List.foldl_nil, drawBit]
    by_cases hb : b.getLsbD (7 - m) = true
    · rw [if_pos hb]
      constructor
      · intro r c
        rw [pixel_toggle, ih1, ih1, hself]
        by_cases hr : r = wrapRow (vy.toNat + row)
        · by_cases hc : c = wrapCol (vx.toNat + m)
          · simp [hr, hc, hself, hb]
          · simp [hr, hc, hcol]
        · simp [hr]
      · simp only [Bool.or_eq_true, ih2, ih1, hself, hcol]
        constructor
        · rintro ((h | ⟨c, h1, h2, h3⟩) | h)
          · exact .inl h
          · exact .inr ⟨c, .inl h1, h2, h3⟩
          · exact .inr ⟨wrapCol (vx.toNat + m), .inr rfl, by rw [hself]; exact hb, by simpa using h⟩
        · rintro (h | ⟨c, h1 | rfl, h2, h3⟩)
          · exact .inl (.inl h)
          · exact .inl (.inr ⟨c, h1, h2, h3⟩)
          · exact .inr (by simpa using h3)
    · rw [if_neg hb]
      simp only [Bool.not_eq_true] at hb
      constructor
      · intro r c
        rw [ih1]
        by_cases hc : c = wrapCol (vx.toNat + m)
        · simp [hc, hself, hb]
        · simp [hc, hcol]
      · rw [ih2]
        constructor
        · rintro (h | ⟨c, h1, h2, h3⟩)
          · exact .inl h
          · exact .inr ⟨c, (hcol c).2 (.inl h1), h2, h3⟩
        · rintro (h | ⟨c, h1, h2, h3⟩)
          · exact .inl h
          · rcases (hcol c).1 h1 with h4 | rfl
            · exact .inr ⟨c, h4, h2, h3⟩
            · rw [hself, hb] at h2; cases h2

/-- One sprite row: its eight pixels are XORed with the bits of the byte, and the collision is whether a bit 1
met a pixel that was set (R210 to R212). -/
theorem drawRow_spec (vx vy : Byte) (row : Nat) (b : Byte) (p : Screen × Bool) :
    (∀ r c, (drawRow vx vy row b p).1.pixel r c =
      (p.1.pixel r c ^^ (decide (r = wrapRow (vy.toNat + row)) && decide (colOffset vx c < 8) &&
        b.getLsbD (7 - colOffset vx c)))) ∧
    ((drawRow vx vy row b p).2 = true ↔ p.2 = true ∨
      ∃ c, colOffset vx c < 8 ∧ b.getLsbD (7 - colOffset vx c) = true ∧
        p.1.pixel (wrapRow (vy.toNat + row)) c = true) := drawBits_spec vx vy row b p 8 (Nat.le_refl 8)

/-- Two framebuffers with the same pixels are the same (R38). -/
theorem screen_ext (a b : Screen) (h : ∀ r c, a.pixel r c = b.pixel r c) : a = b := by
  apply Vector.ext; intro r hr; apply Vector.ext; intro c hc
  exact h ⟨r, hr⟩ ⟨c, hc⟩

end Sys2Proof.Machine
end

