-- ==== Sys2Proof/Laws/Frames.lean ====
section
/-! SUPPORT. What the ways an instruction ends leave unchanged, in the terms of Safety.lean: an advance, a jump, a
skip, a register write, a flagged write, a fatal condition. -/

namespace Sys2Proof.Machine

theorem toNat_add_two (w : Word) : (w + 2#16).toNat = (w.toNat + 2) % 65536 := by simp [BitVec.toNat_add]

theorem toNat_add_four (w : Word) : (w + 4#16).toNat = (w.toNat + 4) % 65536 := by simp [BitVec.toNat_add]

theorem target_toNat (nnn : Addr12) : (target nnn).toNat = nnn.toNat := by
  have := nnn.isLt; simp [target]; omega

theorem addend_toNat (b : Byte) : (addend b).toNat = b.toNat := by
  have := b.isLt; simp [addend]; omega

/-- The default end of an instruction (R25, R125). -/
theorem advanced_next {s u : State} (h : u.pc = s.pc) : Advanced s u.next := by
  simp [Advanced, h]

/-- A jump writes pc and the status only. -/
theorem onlyRegs_goto (s : State) (w : Word) : OnlyRegs [] s (s.goto w) := by
  simp [OnlyRegs, SameRegsBut, SameMemory, SameStack, SameTimers, SameScreen, SameLatches, SameHost,
    State.readByte, State.reg]

/-- A skip goes past the next word exactly if its condition holds (R126). -/
theorem skipped_skipIf (s : State) (c : Bool) : Skipped (c = true) s (s.skipIf c) := by
  cases c <;> simp [Skipped]

/-- A register write changes that register only. -/
theorem onlyRegs_setReg (s : State) (x : Nibble) (b : Byte) (w : Word) :
    OnlyRegs [x] s ((s.setReg x b).goto w) := by
  simp [OnlyRegs, SameRegsBut, SameMemory, SameStack, SameTimers, SameScreen, SameLatches, SameHost, State.readByte]
  intro r hr; simp [hr]

/-- A flagged write changes `V[x]` and VF only (R28). -/
theorem onlyRegs_setFlagged (s : State) (x : Nibble) (f : Flagged) (w : Word) :
    OnlyRegs [x, 0xF#4] s ((s.setFlagged x f).goto w) := by
  simp [OnlyRegs, SameRegsBut, SameMemory, SameStack, SameTimers, SameScreen, SameLatches, SameHost, State.readByte]
  intro r hx hf; simp [hx, hf]

/-- Taking a fatal condition, said once (R128, R312). -/
theorem tookFatal_takeFatal (s : State) (c : Cause) (w : Word) (a : Nat) (h : a < 2 ^ 17) :
    TookFatal c w a s (s.takeFatal c w a) := by
  simp [TookFatal, SameStack, SameTimers, SameScreen, SameHost]; omega

/-- Taking DATA_OOB: the address latched is I, or 4096 if I is memory (R69, R304). -/
theorem tookFatal_takeDataOob (s : State) (i : Instr) :
    TookFatal .dataOob (encode i) (max s.idx.toNat 4096) s (s.takeDataOob i) := by
  have := s.idx.isLt
  exact tookFatal_takeFatal s _ _ _ (by omega)

/-- Taking FETCH_OOB (R303). -/
theorem tookFatal_takeFetchOob (s : State) :
    TookFatal .fetchOob 0#16 (max s.pc.toNat 4096) s s.takeFetchOob := by
  have := s.pc.isLt
  exact tookFatal_takeFatal s _ _ _ (by omega)

end Sys2Proof.Machine
end

