-- ==== Sys2Proof/Laws/PerInstr.lean ====
section
/-! SUPPORT. The statements made per instruction. MaskMatch: the word of an instruction is of its row of the
opcode table, `(w & mask) = match` (spec/30_encoding.md R96). -/

namespace Sys2Proof.Laws.MaskMatch

def Statement (i : Instr) : Prop := encode i &&& i.row.1 = i.row.2

theorem cls (u : Nibble) : Statement (.cls u) := by
  apply BitVec.eq_of_toNat_eq; simp only [encode, Instr.row, mask_family_nn, wordXNN_toNat]
  have := u.isLt; simp; omega
theorem ret (u : Nibble) : Statement (.ret u) := by
  apply BitVec.eq_of_toNat_eq; simp only [encode, Instr.row, mask_family_nn, wordXNN_toNat]
  have := u.isLt; simp; omega
theorem jp (nnn : Addr12) : Statement (.jp nnn) := by
  apply BitVec.eq_of_toNat_eq; simp only [encode, Instr.row, mask_family, wordNNN_toNat]
  have := nnn.isLt; simp; omega
theorem call (nnn : Addr12) : Statement (.call nnn) := by
  apply BitVec.eq_of_toNat_eq; simp only [encode, Instr.row, mask_family, wordNNN_toNat]
  have := nnn.isLt; simp; omega
theorem seImm (x : Nibble) (nn : Byte) : Statement (.seImm x nn) := by
  apply BitVec.eq_of_toNat_eq; simp only [encode, Instr.row, mask_family, wordXNN_toNat]
  have := x.isLt; have := nn.isLt; simp; omega
theorem sneImm (x : Nibble) (nn : Byte) : Statement (.sneImm x nn) := by
  apply BitVec.eq_of_toNat_eq; simp only [encode, Instr.row, mask_family, wordXNN_toNat]
  have := x.isLt; have := nn.isLt; simp; omega
theorem seReg (x y u : Nibble) : Statement (.seReg x y u) := by
  apply BitVec.eq_of_toNat_eq; simp only [encode, Instr.row, mask_family, wordXYN_toNat]
  have := x.isLt; have := y.isLt; have := u.isLt; simp; omega
theorem ldImm (x : Nibble) (nn : Byte) : Statement (.ldImm x nn) := by
  apply BitVec.eq_of_toNat_eq; simp only [encode, Instr.row, mask_family, wordXNN_toNat]
  have := x.isLt; have := nn.isLt; simp; omega
theorem addImm (x : Nibble) (nn : Byte) : Statement (.addImm x nn) := by
  apply BitVec.eq_of_toNat_eq; simp only [encode, Instr.row, mask_family, wordXNN_toNat]
  have := x.isLt; have := nn.isLt; simp; omega
theorem ldReg (x y : Nibble) : Statement (.ldReg x y) := by
  apply BitVec.eq_of_toNat_eq; simp only [encode, Instr.row, mask_family_n, wordXYN_toNat]
  have := x.isLt; have := y.isLt; simp; omega
theorem or (x y : Nibble) : Statement (.or x y) := by
  apply BitVec.eq_of_toNat_eq; simp only [encode, Instr.row, mask_family_n, wordXYN_toNat]
  have := x.isLt; have := y.isLt; simp; omega
theorem and (x y : Nibble) : Statement (.and x y) := by
  apply BitVec.eq_of_toNat_eq; simp only [encode, Instr.row, mask_family_n, wordXYN_toNat]
  have := x.isLt; have := y.isLt; simp; omega
theorem xor (x y : Nibble) : Statement (.xor x y) := by
  apply BitVec.eq_of_toNat_eq; simp only [encode, Instr.row, mask_family_n, wordXYN_toNat]
  have := x.isLt; have := y.isLt; simp; omega
theorem addVxVy (x y : Nibble) : Statement (.addVxVy x y) := by
  apply BitVec.eq_of_toNat_eq; simp only [encode, Instr.row, mask_family_n, wordXYN_toNat]
  have := x.isLt; have := y.isLt; simp; omega
theorem subVxVy (x y : Nibble) : Statement (.subVxVy x y) := by
  apply BitVec.eq_of_toNat_eq; simp only [encode, Instr.row, mask_family_n, wordXYN_toNat]
  have := x.isLt; have := y.isLt; simp; omega
theorem shr (x y : Nibble) : Statement (.shr x y) := by
  apply BitVec.eq_of_toNat_eq; simp only [encode, Instr.row, mask_family_n, wordXYN_toNat]
  have := x.isLt; have := y.isLt; simp; omega
theorem subn (x y : Nibble) : Statement (.subn x y) := by
  apply BitVec.eq_of_toNat_eq; simp only [encode, Instr.row, mask_family_n, wordXYN_toNat]
  have := x.isLt; have := y.isLt; simp; omega
theorem shl (x y : Nibble) : Statement (.shl x y) := by
  apply BitVec.eq_of_toNat_eq; simp only [encode, Instr.row, mask_family_n, wordXYN_toNat]
  have := x.isLt; have := y.isLt; simp; omega
theorem sneReg (x y u : Nibble) : Statement (.sneReg x y u) := by
  apply BitVec.eq_of_toNat_eq; simp only [encode, Instr.row, mask_family, wordXYN_toNat]
  have := x.isLt; have := y.isLt; have := u.isLt; simp; omega
theorem ldI (nnn : Addr12) : Statement (.ldI nnn) := by
  apply BitVec.eq_of_toNat_eq; simp only [encode, Instr.row, mask_family, wordNNN_toNat]
  have := nnn.isLt; simp; omega
theorem jpV0 (nnn : Addr12) : Statement (.jpV0 nnn) := by
  apply BitVec.eq_of_toNat_eq; simp only [encode, Instr.row, mask_family, wordNNN_toNat]
  have := nnn.isLt; simp; omega
theorem rnd (x : Nibble) (nn : Byte) : Statement (.rnd x nn) := by
  apply BitVec.eq_of_toNat_eq; simp only [encode, Instr.row, mask_family, wordXNN_toNat]
  have := x.isLt; have := nn.isLt; simp; omega
theorem drw (x y n : Nibble) : Statement (.drw x y n) := by
  apply BitVec.eq_of_toNat_eq; simp only [encode, Instr.row, mask_family, wordXYN_toNat]
  have := x.isLt; have := y.isLt; have := n.isLt; simp; omega
theorem skp (x : Nibble) : Statement (.skp x) := by
  apply BitVec.eq_of_toNat_eq; simp only [encode, Instr.row, mask_family_nn, wordXNN_toNat]
  have := x.isLt; simp; omega
theorem sknp (x : Nibble) : Statement (.sknp x) := by
  apply BitVec.eq_of_toNat_eq; simp only [encode, Instr.row, mask_family_nn, wordXNN_toNat]
  have := x.isLt; simp; omega
theorem ldDt (x : Nibble) : Statement (.ldDt x) := by
  apply BitVec.eq_of_toNat_eq; simp only [encode, Instr.row, mask_family_nn, wordXNN_toNat]
  have := x.isLt; simp; omega
theorem ldKey (x : Nibble) : Statement (.ldKey x) := by
  apply BitVec.eq_of_toNat_eq; simp only [encode, Instr.row, mask_family_nn, wordXNN_toNat]
  have := x.isLt; simp; omega
theorem setDt (x : Nibble) : Statement (.setDt x) := by
  apply BitVec.eq_of_toNat_eq; simp only [encode, Instr.row, mask_family_nn, wordXNN_toNat]
  have := x.isLt; simp; omega
theorem setSt (x : Nibble) : Statement (.setSt x) := by
  apply BitVec.eq_of_toNat_eq; simp only [encode, Instr.row, mask_family_nn, wordXNN_toNat]
  have := x.isLt; simp; omega
theorem addI (x : Nibble) : Statement (.addI x) := by
  apply BitVec.eq_of_toNat_eq; simp only [encode, Instr.row, mask_family_nn, wordXNN_toNat]
  have := x.isLt; simp; omega
theorem ldFont (x : Nibble) : Statement (.ldFont x) := by
  apply BitVec.eq_of_toNat_eq; simp only [encode, Instr.row, mask_family_nn, wordXNN_toNat]
  have := x.isLt; simp; omega
theorem ldBcd (x : Nibble) : Statement (.ldBcd x) := by
  apply BitVec.eq_of_toNat_eq; simp only [encode, Instr.row, mask_family_nn, wordXNN_toNat]
  have := x.isLt; simp; omega
theorem store (x : Nibble) : Statement (.store x) := by
  apply BitVec.eq_of_toNat_eq; simp only [encode, Instr.row, mask_family_nn, wordXNN_toNat]
  have := x.isLt; simp; omega
theorem load (x : Nibble) : Statement (.load x) := by
  apply BitVec.eq_of_toNat_eq; simp only [encode, Instr.row, mask_family_nn, wordXNN_toNat]
  have := x.isLt; simp; omega

end Sys2Proof.Laws.MaskMatch
end

