-- ==== Sys2Proof/WellFormed.lean ====
section
/-! DEFINITION. The checks on an instruction term. The widths of the fields (R9, R93, R94) are in the types, and
every value of a field is legal (R21, R94), so every term is an instruction the machine executes. The one check
the spec defines beyond that is whether the term is CANONICAL: what an assembler writes (R107). A term that is
not canonical is executed all the same (R98). -/

namespace Sys2Proof

/-- R107: the bits the decoder ignores are written as 0. -/
def Instr.canonical : Instr → Bool
  | .cls u => u == 0
  | .ret u => u == 0
  | .seReg _ _ u => u == 0
  | .sneReg _ _ u => u == 0
  | .shr _ y => y == 0
  | .shl _ y => y == 0
  | .jp _ => true
  | .call _ => true
  | .seImm _ _ => true
  | .sneImm _ _ => true
  | .ldImm _ _ => true
  | .addImm _ _ => true
  | .ldReg _ _ => true
  | .or _ _ => true
  | .and _ _ => true
  | .xor _ _ => true
  | .addVxVy _ _ => true
  | .subVxVy _ _ => true
  | .subn _ _ => true
  | .ldI _ => true
  | .jpV0 _ => true
  | .rnd _ _ => true
  | .drw _ _ _ => true
  | .skp _ => true
  | .sknp _ => true
  | .ldDt _ => true
  | .ldKey _ => true
  | .setDt _ => true
  | .setSt _ => true
  | .addI _ => true
  | .ldFont _ => true
  | .ldBcd _ => true
  | .store _ => true
  | .load _ => true

end Sys2Proof
end

