-- ==== Sys2Proof/Tests/Slice0.lean ====
section
/-! SUPPORT. Tests. Expected results are those of spec/95_test_vectors.md, whose row each test names; where a
test names none, its values are worked by hand from the rule it names. The witnesses at the end show, for every
statement with hypotheses, a state and operands that meet them, at the boundary of each clause. -/

namespace Sys2Proof.Tests

open Sys2Proof Sys2Proof.Machine

/-! ### Small states -/

/-- A state with some registers set. -/
def withRegs (s : State) (l : List (Nibble × Byte)) : State := l.foldl (fun s p => s.setReg p.1 p.2) s

/-- Reset, with some registers set. -/
def regs (l : List (Nibble × Byte)) : State := withRegs State.reset l

/-- Reset, with I and some registers set. -/
def idxRegs (idx : Word) (l : List (Nibble × Byte)) : State := (regs l).setIdx idx

/-- Reset, with some keys down. -/
def keys (l : List Nibble) : State := l.foldl (fun s k => s.keyWrite k true) State.reset

/-- A state with some pixels toggled. -/
def lit (s : State) (l : List (Fin 32 × Fin 64)) : State :=
  { s with fb := l.foldl (fun fb p => fb.toggle p.1 p.2) s.fb }

/-- Reset, with a stack whose entries in use are those given, the oldest first. -/
def stacked (l : List Word) : State :=
  { State.reset with sp := Fin.ofNat 17 l.length, stack := Vector.ofFn fun k : Fin 16 => l.getD k.val 0#16 }

/-- The state after one step, if there is one. -/
def nextOf : Host.Outcome State Fault Refusal → Option State
  | .next t => some t
  | .fault _ => none
  | .refused _ => none

/-- The state after a step that runs the word `w` placed at pc. -/
def run (w : Nat) (s : State) : Option State := nextOf (step (s.withFetchWord 16 w))

/-- V1 and VF after that step. -/
def v1vf (w : Nat) (s : State) : Option (Byte × Byte) := (run w s).map fun t => (t.reg 0x1#4, t.reg 0xF#4)

/-- The fatal latches and pc after that step. -/
def fatal (w : Nat) (s : State) : Option (Cause × Word × Word × Nat × Word) :=
  (run w s).map fun t => (t.fatalCause, t.faultPc, t.faultWord, t.faultAddr.toNat, t.pc)

/-- pc and status after that step. -/
def pcStatus (w : Nat) (s : State) : Option (Word × Status) := (run w s).map fun t => (t.pc, t.status)

/-- Some pixels after that step. -/
def pixels (w : Nat) (s : State) (l : List (Fin 32 × Fin 64)) : Option (List Bool) :=
  (run w s).map fun t => l.map fun p => t.fb.pixel p.1 p.2

/-! ### Well-formedness (R107): a term for each check, refused -/

theorem test_canonical_cls : (Instr.cls 1).canonical = false := by decide
theorem test_canonical_ret : (Instr.ret 0xF).canonical = false := by decide
theorem test_canonical_seReg : (Instr.seReg 1 2 0xF).canonical = false := by decide
theorem test_canonical_sneReg : (Instr.sneReg 1 2 1).canonical = false := by decide
theorem test_canonical_shr : (Instr.shr 1 0xF).canonical = false := by decide
theorem test_canonical_shl : (Instr.shl 1 2).canonical = false := by decide
theorem test_canonical_accepts : (Instr.cls 0).canonical = true ∧ (Instr.shr 1 0).canonical = true := by decide

/-! ### Decoding: E1 to E22, every constructor -/

theorem test_decode_families_0_to_4 :
    decodeWord 0x00E0#16 = .ok (.cls 0) ∧ decodeWord 0x00EE#16 = .ok (.ret 0) ∧
    decodeWord 0x1ABC#16 = .ok (.jp 0xABC) ∧ decodeWord 0x2345#16 = .ok (.call 0x345) ∧
    decodeWord 0x3A42#16 = .ok (.seImm 0xA 0x42) ∧ decodeWord 0x4A42#16 = .ok (.sneImm 0xA 0x42) := by decide

theorem test_decode_families_5_to_7 :
    decodeWord 0x5120#16 = .ok (.seReg 1 2 0) ∧ decodeWord 0x600A#16 = .ok (.ldImm 0 0x0A) ∧
    decodeWord 0x7005#16 = .ok (.addImm 0 5) := by decide

theorem test_decode_family_8 :
    decodeWord 0x8120#16 = .ok (.ldReg 1 2) ∧ decodeWord 0x8121#16 = .ok (.or 1 2) ∧
    decodeWord 0x8122#16 = .ok (.and 1 2) ∧ decodeWord 0x8123#16 = .ok (.xor 1 2) ∧
    decodeWord 0x8124#16 = .ok (.addVxVy 1 2) ∧ decodeWord 0x8125#16 = .ok (.subVxVy 1 2) ∧
    decodeWord 0x8126#16 = .ok (.shr 1 2) ∧ decodeWord 0x8127#16 = .ok (.subn 1 2) ∧
    decodeWord 0x812E#16 = .ok (.shl 1 2) := by decide

theorem test_decode_families_9_to_E :
    decodeWord 0x9120#16 = .ok (.sneReg 1 2 0) ∧ decodeWord 0xA21A#16 = .ok (.ldI 0x21A) ∧
    decodeWord 0xB300#16 = .ok (.jpV0 0x300) ∧ decodeWord 0xC10F#16 = .ok (.rnd 1 0x0F) ∧
    decodeWord 0xD342#16 = .ok (.drw 3 4 2) ∧ decodeWord 0xE19E#16 = .ok (.skp 1) ∧
    decodeWord 0xE1A1#16 = .ok (.sknp 1) := by decide

theorem test_decode_family_F :
    decodeWord 0xF107#16 = .ok (.ldDt 1) ∧ decodeWord 0xF10A#16 = .ok (.ldKey 1) ∧
    decodeWord 0xF115#16 = .ok (.setDt 1) ∧ decodeWord 0xF118#16 = .ok (.setSt 1) ∧
    decodeWord 0xF11E#16 = .ok (.addI 1) ∧ decodeWord 0xF129#16 = .ok (.ldFont 1) ∧
    decodeWord 0xF133#16 = .ok (.ldBcd 1) ∧ decodeWord 0xF155#16 = .ok (.store 1) ∧
    decodeWord 0xF165#16 = .ok (.load 1) := by decide

/-- E18 to E22: the ignored bits select nothing. -/
theorem test_decode_ignored_bits :
    decodeWord 0x0FE0#16 = .ok (.cls 0xF) ∧ decodeWord 0x0FEE#16 = .ok (.ret 0xF) ∧
    decodeWord 0x512F#16 = .ok (.seReg 1 2 0xF) ∧ decodeWord 0x912F#16 = .ok (.sneReg 1 2 0xF) ∧
    decodeWord 0x81F6#16 = .ok (.shr 1 0xF) ∧ decodeWord 0x81FE#16 = .ok (.shl 1 0xF) := by decide

/-- N1 to N11: words that are no instruction, rejected by the name of their family. -/
theorem test_decode_rejects :
    decodeWord 0x0000#16 = .error .family0 ∧ decodeWord 0x0123#16 = .error .family0 ∧
    decodeWord 0x00E1#16 = .error .family0 ∧ decodeWord 0x00FD#16 = .error .family0 ∧
    decodeWord 0x8128#16 = .error .family8 ∧ decodeWord 0x812F#16 = .error .family8 ∧
    decodeWord 0xE100#16 = .error .familyE ∧ decodeWord 0xE19F#16 = .error .familyE ∧
    decodeWord 0xF100#16 = .error .familyF ∧ decodeWord 0xF156#16 = .error .familyF ∧
    decodeWord 0xFF75#16 = .error .familyF := by decide

/-- R64, S10: the byte at the lower address is the high one; one byte is no instruction. -/
theorem test_decode_bytes :
    decodeBytes [0xD3#8, 0x42#8, 0x12#8] = .ok (.drw 3 4 2, [0x12#8]) ∧
    decodeBytes [0xD3#8] = .error .truncated := by decide

/-- P3: encodings of a program of the spec. -/
theorem test_encode :
    encode (.ldImm 0 234) = 0x60EA#16 ∧ encode (.ldI 0x220) = 0xA220#16 ∧ encode (.ldBcd 0) = 0xF033#16 ∧
    encode (.load 2) = 0xF265#16 ∧ encode (.addVxVy 0 1) = 0x8014#16 ∧ encode (.drw 3 4 2) = 0xD342#16 ∧
    encode (.jp 0x216) = 0x1216#16 := by decide

/-! ### One step of each instruction -/

/-- K1: every pixel off, draw_pending on, VF left alone. -/
theorem test_cls :
    (run 0x00E0 (lit (regs [(0xF, 1)]) [(3, 4), (31, 63)])).map
      (fun t => (t.fb.pixel 3 4, t.fb.pixel 31 63, t.drawPending, t.reg 0xF#4)) = some (false, false, true, 1) := by
  decide

/-- K4: the newest entry is taken; its slot keeps its value (K3). -/
theorem test_ret :
    (run 0x00EE (stacked [0x206, 0xABC])).map (fun t => (t.pc, t.sp.val, t.stack[1])) = some (0xABC, 1, 0xABC) := by
  decide

/-- K5. -/
theorem test_ret_underflow :
    fatal 0x00EE State.reset = some (.stackUnderflow, 0x200, 0x00EE, 0, 0x200) := by decide

/-- J3: an odd target is no error. -/
theorem test_jp : pcStatus 0x1201 State.reset = some (0x201, .done) := by decide

/-- J7: the return address is not masked. -/
theorem test_call :
    (run 0x2FFE { State.reset with pc := 0xFFE }).map (fun t => (t.pc, t.sp.val, t.stack[0])) =
      some (0xFFE, 1, 0x1000) := by decide

/-- J8: with the ignored stack slot values 1 to 16. -/
theorem test_call_overflow :
    fatal 0x2345 (stacked [1, 2, 3, 4, 5, 6, 7, 8, 9, 10, 11, 12, 13, 14, 15, 16]) =
      some (.stackOverflow, 0x200, 0x2345, 0, 0x200) := by decide

/-- J9, J10. -/
theorem test_seImm :
    pcStatus 0x3142 (regs [(1, 0x42)]) = some (0x204, .done) ∧
    pcStatus 0x3142 (regs [(1, 0x41)]) = some (0x202, .done) := by decide

/-- J11, J12. -/
theorem test_sneImm :
    pcStatus 0x4142 (regs [(1, 0x42)]) = some (0x202, .done) ∧
    pcStatus 0x4142 (regs [(1, 0x41)]) = some (0x204, .done) := by decide

/-- J13, J14. -/
theorem test_seReg :
    pcStatus 0x5120 (regs [(1, 7), (2, 7)]) = some (0x204, .done) ∧
    pcStatus 0x5120 (regs [(1, 7), (2, 8)]) = some (0x202, .done) := by decide

/-- J15, J16. -/
theorem test_sneReg :
    pcStatus 0x9120 (regs [(1, 7), (2, 7)]) = some (0x202, .done) ∧
    pcStatus 0x9120 (regs [(1, 7), (2, 8)]) = some (0x204, .done) := by decide

/-- J20: a skip past the end of memory is no error by itself. -/
theorem test_skip_past_the_end :
    pcStatus 0x3000 { State.reset with pc := 0xFFE } = some (0x1002, .done) := by decide

/-- I2: VF is an ordinary destination. -/
theorem test_ldImm : (run 0x6FAB State.reset).map (fun t => t.reg 0xF#4) = some 0xAB := by decide

/-- I4, I5: it wraps and sets no flag. -/
theorem test_addImm :
    (run 0x73FF (regs [(3, 0x80), (0xF, 1)])).map (fun t => (t.reg 3#4, t.reg 0xF#4)) = some (0x7F, 1) ∧
    (run 0x7F01 (regs [(0xF, 0xFF)])).map (fun t => t.reg 0xF#4) = some 0 := by decide

/-- A1, A45. -/
theorem test_ldReg :
    v1vf 0x8120 (regs [(1, 0x11), (2, 0x22), (0xF, 7)]) = some (0x22, 7) ∧
    v1vf 0x8F10 (regs [(1, 4), (0xF, 9)]) = some (4, 4) := by decide

/-- A2, A46. -/
theorem test_or :
    v1vf 0x8121 (regs [(1, 0xF0), (2, 0x0F), (0xF, 7)]) = some (0xFF, 7) ∧
    v1vf 0x8F11 (regs [(1, 0xF0), (0xF, 1)]) = some (0xF0, 0xF1) := by decide

/-- A3. -/
theorem test_and : v1vf 0x8122 (regs [(1, 0xF0), (2, 0x3C), (0xF, 7)]) = some (0x30, 7) := by decide

/-- A4, A5. -/
theorem test_xor :
    v1vf 0x8123 (regs [(1, 0xFF), (2, 0x0F), (0xF, 7)]) = some (0xF0, 7) ∧
    v1vf 0x8113 (regs [(1, 0x5A), (0xF, 7)]) = some (0, 7) := by decide

/-- A9, A7. -/
theorem test_addVxVy :
    v1vf 0x8124 (regs [(1, 0x80), (2, 0x80), (0xF, 7)]) = some (0, 1) ∧
    v1vf 0x8124 (regs [(1, 0x10), (2, 0x20), (0xF, 7)]) = some (0x30, 0) := by decide

/-- A31, A33: the flag replaces the result in VF; the old VF is the operand. -/
theorem test_addVxVy_vf :
    v1vf 0x8F14 (regs [(1, 0x20), (0xF, 0x10)]) = some (0x20, 0) ∧
    v1vf 0x81F4 (regs [(1, 0xFE), (0xF, 3)]) = some (1, 1) := by decide

/-- A11, A12. -/
theorem test_subVxVy :
    v1vf 0x8125 (regs [(1, 5), (2, 5), (0xF, 7)]) = some (0, 1) ∧
    v1vf 0x8125 (regs [(1, 3), (2, 5), (0xF, 7)]) = some (0xFE, 0) := by decide

/-- A36, A34. -/
theorem test_subVxVy_vf :
    v1vf 0x81F5 (regs [(1, 4), (0xF, 9)]) = some (0xFB, 0) ∧
    v1vf 0x8F15 (regs [(1, 4), (0xF, 9)]) = some (4, 1) := by decide

/-- A19, A39: the y field's register is not read. -/
theorem test_shr :
    v1vf 0x8126 (regs [(1, 5), (2, 0xAA), (0xF, 7)]) = some (2, 1) ∧
    v1vf 0x8F06 (regs [(0xF, 3)]) = some (0, 1) := by decide

/-- A16, A17. -/
theorem test_subn :
    v1vf 0x8127 (regs [(1, 5), (2, 3), (0xF, 7)]) = some (0xFE, 0) ∧
    v1vf 0x8127 (regs [(1, 3), (2, 5), (0xF, 7)]) = some (2, 1) := by decide

/-- A23, A42. -/
theorem test_shl :
    v1vf 0x812E (regs [(1, 0x81), (2, 0xAA), (0xF, 7)]) = some (2, 1) ∧
    v1vf 0x8F0E (regs [(0xF, 0x7F)]) = some (0, 0) := by decide

/-- X1. -/
theorem test_ldI : (run 0xAFFF State.reset).map (fun t => t.idx) = some 0xFFF := by decide

/-- X2, X3. -/
theorem test_jpV0 :
    pcStatus 0xB300 (regs [(0, 4), (3, 0x80)]) = some (0x304, .done) ∧
    pcStatus 0xBFFF (regs [(0, 0xFF)]) = some (0x10FE, .done) := by decide

/-- X4, X5 for any random byte: the byte ANDed with nn; the next RND draws the next byte. -/
theorem test_rnd :
    (run 0xC10F State.reset).map (fun t => (t.reg 1#4, t.reg 0xF#4, t.rndIndex)) =
      some (Config.rnd 0 &&& 0x0F#8, 0#8, 1) := rfl

/-- W1: one row at column 63 wraps to columns 0 to 6. -/
theorem test_drw_wraps :
    pixels 0xD121 ((idxRegs 0x300 [(1, 63)]).writeBytes 0x300 [0xFF])
      [(0, 63), (0, 0), (0, 6), (0, 7), (0, 62), (1, 63)] = some [true, true, true, false, false, false] := by
  decide

/-- W17: both coordinates from the old VF, then the collision flag. -/
theorem test_drw_vf :
    (run 0xDFF1 ((lit (idxRegs 0x300 [(0xF, 10)]) [(10, 10)]).writeBytes 0x300 [0x80])).map
      (fun t => (t.fb.pixel 10 10, t.reg 0xF#4, t.drawPending)) = some (false, 1, true) := by decide

/-- W11: out of range before any effect. -/
theorem test_drw_out_of_range :
    fatal 0xD122 (idxRegs 0xFFF [(0xF, 9)]) = some (.dataOob, 0x200, 0xD122, 0x1000, 0x200) := by decide

/-- Y5, Y8: the key is V[x] modulo 16, and only that key. -/
theorem test_skp :
    pcStatus 0xE19E (withRegs (keys [5]) [(1, 0x15)]) = some (0x204, .done) ∧
    pcStatus 0xE19E (withRegs (keys [4, 6]) [(1, 5)]) = some (0x202, .done) := by decide

/-- Y6, Y4. -/
theorem test_sknp :
    pcStatus 0xE1A1 (withRegs (keys [5]) [(1, 0xF5)]) = some (0x202, .done) ∧
    pcStatus 0xE1A1 (regs [(1, 5)]) = some (0x204, .done) := by decide

/-- M25. -/
theorem test_ldDt :
    (run 0xF107 { State.reset with dt := 0x2A, st := 3 }).map (fun t => (t.reg 1#4, t.dt, t.st)) =
      some (0x2A, 0x2A, 3) := by decide

/-- Y9: waiting. -/
theorem test_ldKey_waits : pcStatus 0xF10A State.reset = some (0x200, .waiting) := by decide

/-- Y10: the least key. -/
theorem test_ldKey_takes :
    (run 0xF10A (keys [7, 3])).map (fun t => (t.reg 1#4, t.pc, t.status)) = some (3, 0x202, .done) := by decide

/-- M26. -/
theorem test_setDt : (run 0xF115 (regs [(1, 7)])).map (fun t => (t.dt, t.st)) = some (7, 0) := by decide

/-- M27. -/
theorem test_setSt : (run 0xF418 (regs [(4, 0x1E)])).map (fun t => (t.dt, t.st)) = some (0, 0x1E) := by decide

/-- M21, M22. -/
theorem test_addI :
    (run 0xF11E (idxRegs 0xFFFF [(1, 1)])).map (fun t => t.idx) = some 0 ∧
    (run 0xF11E (idxRegs 0xFFF [(1, 1), (0xF, 5)])).map (fun t => (t.idx, t.reg 0xF#4)) = some (0x1000, 5) := by
  decide

/-- M24: the whole 8-bit value, no mask. -/
theorem test_ldFont :
    (run 0xF129 (regs [(1, 15)])).map (fun t => t.idx) = some 0x4B ∧
    (run 0xF129 (regs [(1, 255)])).map (fun t => t.idx) = some 0x4FB := by decide

/-- M15, S6. -/
theorem test_ldBcd :
    (run 0xF133 (idxRegs 0xFFD [(1, 199)])).map (fun t => t.readBytes 0xFFD 3) = some [1, 9, 9] ∧
    (run 0xF033 (idxRegs 0x220 [(0, 234)])).map (fun t => t.readBytes 0x220 3) = some [2, 3, 4] := by decide

/-- M16: nothing written. -/
theorem test_ldBcd_out_of_range :
    fatal 0xF133 (idxRegs 0xFFE [(1, 199)]) = some (.dataOob, 0x200, 0xF133, 0x1000, 0x200) := by decide

/-- M1: V0 lowest, I unchanged, the byte after it untouched. -/
theorem test_store :
    (run 0xF255 (idxRegs 0x300 [(0, 0x11), (1, 0x22), (2, 0x33), (3, 0x44)])).map
      (fun t => (t.readBytes 0x300 4, t.idx)) = some ([0x11, 0x22, 0x33, 0], 0x300) := by decide

/-- M6b: the last address is not wrapped. -/
theorem test_store_out_of_range :
    fatal 0xF255 (idxRegs 0xFFFE []) = some (.dataOob, 0x200, 0xF255, 0xFFFE, 0x200) := by decide

/-- M13: glyph 0 read from the font; V5 untouched. -/
theorem test_load :
    (run 0xF465 (idxRegs 0 [(5, 0x55)])).map (fun t => (t.v.toList.take 6, t.idx)) =
      some ([0xF0, 0x90, 0x90, 0x90, 0xF0, 0x55], 0) := by decide

/-- M10: the in-range byte is not loaded. -/
theorem test_load_out_of_range :
    (run 0xF165 (idxRegs 0xFFF [(0, 0x55)])).map (fun t => (t.fatalCause, t.reg 0#4)) =
      some (.dataOob, 0x55) := by decide

/-! ### The cycle and the host's operations -/

/-- N2: reported with its address, and passed over. -/
theorem test_unrecognised :
    (run 0x0123 State.reset).map (fun t => (t.reportWord, t.reportAddr, t.reportCount, t.pc, t.status)) =
      some (0x123, 0x200, 1, 0x202, .unrecognised) := by decide

/-- J21, J22: the fetch at 0xFFF and at 0xFFFF. -/
theorem test_fetch_out_of_range :
    (nextOf (step { State.reset with pc := 0xFFF })).map (fun t => (t.fatalCause, t.faultPc, t.faultAddr)) =
      some (.fetchOob, 0xFFF, 0x1000) ∧
    (nextOf (step { State.reset with pc := 0xFFFF })).map (fun t => (t.fatalCause, t.faultPc, t.faultAddr)) =
      some (.fetchOob, 0xFFFF, 0xFFFF) := by decide

/-- R124, R300: the numbers of the statuses and of the causes. -/
theorem test_codes :
    [Status.done, .waiting, .unrecognised, .fatal].map Status.code = [0, 1, 2, 3] ∧
    [Cause.none, .stackOverflow, .stackUnderflow, .fetchOob, .dataOob].map Cause.code = [0, 1, 2, 3, 4] := by decide

/-- T6: a halted engine. -/
theorem test_halted :
    nextOf (cycle { State.reset with fatalCause := .dataOob }) =
      some { State.reset with fatalCause := .dataOob, status := .fatal } := by decide

/-- T1 to T3, T5: each timer counts down by 1 and stays at 0, halted or not. -/
theorem test_tick :
    nextOf (perform .tick { State.reset with dt := 0, st := 1 }) = some State.reset ∧
    nextOf (perform .tick { State.reset with dt := 255, fatalCause := .fetchOob }) =
      some { State.reset with dt := 254, fatalCause := .fetchOob } := by decide

/-- T7. -/
theorem test_reset :
    nextOf (perform .reset { regs [(3, 9)] with fatalCause := .dataOob, pc := 0x345 }) = some State.reset := by decide

/-- T8: an image lies from 0x200 and the font stays; with the zeros after it, it fills the program region. -/
theorem test_romLoad :
    (State.reset.writeBytes Config.programBase [0x12, 0x00, 0xAA]).readBytes 0x200 3 = [0x12, 0x00, 0xAA] ∧
    (State.reset.writeBytes Config.programBase [0x12, 0x00, 0xAA]).readByte 0 = 0xF0 ∧
    (romBytes [0x12, 0x00, 0xAA]).length = 3584 := by
  refine ⟨by decide, by decide, ?_⟩
  rw [romBytes, List.length_append, List.length_replicate]
  decide

/-- T10: one byte too many. -/
theorem test_romLoad_fails (image : List Byte) (h : image.length = 3585) :
    perform (.romLoad image) State.reset = .fault .romLoadFailed := by
  simp [perform, State.romLoad, State.reset, Config.romMax, h]

/-- T11: a key goes down and comes up. -/
theorem test_keyWrite :
    (State.reset.keyWrite 7 true).key[7] = true ∧ (State.reset.keyWrite 7 true).keyWrite 7 false = State.reset := by
  decide

/-- T12. -/
theorem test_frameAck :
    nextOf (perform .frameAck { State.reset with drawPending := true }) = some State.reset := by decide

/-! ### Witnesses: the hypotheses of every statement that has some, met -/

theorem witness_encodeOfDecode : decodeWord 0x0FEE#16 = .ok (.ret 0xF) := by decide

theorem witness_decoderAgrees : 0x81F6#16 &&& (Instr.shr 1 2).row.1 = (Instr.shr 1 2).row.2 := by decide

/-- The last byte of memory, and a memory in canonical form that lists it. -/
theorem witness_memory :
    4095 < 4096 ∧ Memory.wf ({ State.reset with mem := [(4095, 7)] } : State).mem = true := by decide

/-- Reset with JP 0x234 in the last two bytes of memory, which pc is at. -/
def atTheEnd : State := { State.reset with pc := 0xFFE, mem := [(0xFFE, 0x12), (0xFFF, 0x34)] }

theorem witness_stepRuns :
    atTheEnd.takeOp.1 = .step ∧ atTheEnd.fatalCause = .none ∧ atTheEnd.pc.toNat ≤ 4094 ∧
    decodeWord (BitVec.ofNat 16 ((atTheEnd.readByte atTheEnd.pc.toNat).toNat * 256 +
      (atTheEnd.readByte (atTheEnd.pc.toNat + 1)).toNat)) = .ok (.jp 0x234) := by decide

theorem witness_unrecognised :
    State.reset.fatalCause = .none ∧ State.reset.pc.toNat ≤ 4094 ∧
    decodeWord State.reset.fetchWord = .error .family0 := by decide

theorem witness_fetchOutside :
    ({ State.reset with pc := 0xFFF } : State).fatalCause = .none ∧
    ({ State.reset with pc := 0xFFF } : State).pc.toNat + 1 > 4095 := by decide

theorem witness_halted :
    ({ State.reset with fatalCause := .stackOverflow } : State).fatalCause ≠ .none ∧
    nextOf (perform .tick { State.reset with fatalCause := .stackOverflow }) =
      some { State.reset with fatalCause := .stackOverflow } := by decide

theorem witness_ret : 0 < (stacked [0x206]).sp.val ∧ State.reset.sp.val = 0 := by decide

theorem witness_call :
    (stacked [1, 2, 3, 4, 5, 6, 7, 8, 9, 10, 11, 12, 13, 14, 15]).sp.val < 16 ∧
    (stacked [1, 2, 3, 4, 5, 6, 7, 8, 9, 10, 11, 12, 13, 14, 15, 16]).sp.val = 16 := by decide

/-- S5, at the deepest level a CALL can be made from. -/
theorem witness_callThenRet :
    (stacked [1, 2, 3, 4, 5, 6, 7, 8, 9, 10, 11, 12, 13, 14, 15]).sp.val = 15 := by decide

theorem witness_jp_self : State.reset.pc.toNat = (0x200#12).toNat := by decide

/-- The two carry clauses of ADD_VX_VY, at 256 and at 255. -/
theorem witness_add :
    ((regs [(1, 0x80), (2, 0x80)]).reg 1).toNat + ((regs [(1, 0x80), (2, 0x80)]).reg 2).toNat > 255 ∧
    ((regs [(1, 0x80), (2, 0x7F)]).reg 1).toNat + ((regs [(1, 0x80), (2, 0x7F)]).reg 2).toNat ≤ 255 := by decide

/-- The two borrow clauses of SUB_VX_VY and SUBN, at equality and one below. -/
theorem witness_sub :
    ((regs [(1, 5), (2, 5)]).reg 1).toNat ≥ ((regs [(1, 5), (2, 5)]).reg 2).toNat ∧
    ((regs [(1, 4), (2, 5)]).reg 1).toNat < ((regs [(1, 4), (2, 5)]).reg 2).toNat := by decide

/-- The bounds of DRW: 15 rows that end at 4095 (W12), and no rows with I at its greatest (W9). -/
theorem witness_drw :
    (idxRegs 0xFF1 []).idx.toNat + (15#4).toNat - 1 ≤ 4095 ∧
    (0#4).toNat = 0 ∧ (idxRegs 0xFFFF []).idx.toNat = 65535 := by decide

/-- A collision (W6) and none (W8). -/
theorem witness_drw_collision :
    ((idxRegs 0x300 []).writeBytes 0x300 [0xC0]).spriteBit 0 0 1 0 1 = true ∧
    ((idxRegs 0x300 []).writeBytes 0x300 [0x40]).spriteBit 0 0 1 0 0 = false := by decide

theorem witness_drwTwice :
    (1#4) ≠ 0xF#4 ∧ (2#4) ≠ 0xF#4 ∧ (idxRegs 0xFFF []).idx.toNat + (1#4).toNat - 1 ≤ 4095 := by decide

theorem witness_keypadSkips : (5 : Fin 16).val = ((regs [(1, 0xF5)]).reg 1).toNat % 16 := by decide

/-- All keys up (Y9), and key 15 the only one down (Y11). -/
theorem witness_ldKey :
    (∀ k : Fin 16, State.reset.key[k] = false) ∧ (keys [15]).key[(15 : Fin 16)] = true ∧
    (∀ j : Fin 16, j < 15 → (keys [15]).key[j] = false) := by decide

/-- M15 and M16. -/
theorem witness_ldBcd : (idxRegs 0xFFD []).idx.toNat + 2 ≤ 4095 ∧ (idxRegs 0xFFE []).idx.toNat + 2 > 4095 := by
  decide

/-- M5 and M6, M11 and M12. -/
theorem witness_store_load :
    (idxRegs 0xFF0 []).idx.toNat + (0xF#4).toNat ≤ 4095 ∧ (idxRegs 0xFF1 []).idx.toNat + (0xF#4).toNat > 4095 := by
  decide

/-- M14, with the word stored in the last two bytes of memory. -/
theorem witness_storedWord :
    1 ≤ (1#4).toNat ∧ ({ State.reset with pc := 0xFFC, idx := 0xFFE } : State).idx.toNat =
      ({ State.reset with pc := 0xFFC, idx := 0xFFE } : State).pc.toNat + 2 ∧
    ({ State.reset with pc := 0xFFC, idx := 0xFFE } : State).idx.toNat + (1#4).toNat ≤ 4095 := by decide

/-- A state with the invariant, and a step from it. -/
theorem witness_invariant :
    State.reset.Inv ∧ nextOf (step State.reset) = some { State.reset.report 0#16 with loadOpen := false } := by
  refine ⟨⟨by decide, by decide, by decide, by decide, ⟨rfl, rfl, rfl⟩, .inl ⟨rfl, rfl, rfl⟩⟩, by decide⟩

/-- An instruction that raises a condition and one that raises none (both are next states). -/
theorem witness_fatalCycle :
    (Instr.ret 0).raises State.reset = some .stackUnderflow ∧
    nextOf (exec (.ret 0) State.reset) = some (State.reset.takeFatal .stackUnderflow 0x00EE 0) ∧
    (Instr.store 0xF).raises (idxRegs 0xFF0 []) = none ∧
    (Instr.store 0xF).raises (idxRegs 0xFF1 []) = some .dataOob := by decide

/-- The premises of the whole-machine frames: an exec with a next state, for an instruction of each exception and
for one that is none. -/
theorem witness_frames :
    nextOf (exec (.ldI 0x300) State.reset) = some { State.reset with idx := 0x300, pc := 0x202 } ∧
    nextOf (exec (.cls 0) State.reset) = some { State.reset with drawPending := true, pc := 0x202 } ∧
    nextOf (exec (.setDt 0) State.reset) = some { State.reset with pc := 0x202 } ∧
    ({ State.reset with drawPending := true } : State).drawPending = true := by decide

/-- A cycle that runs SET_DT. -/
theorem witness_timers :
    decodeWord ({ State.reset with mem := [(0x200, 0xF1), (0x201, 0x15)] } : State).fetchWord = .ok (.setDt 1) ∧
    (nextOf (cycle { State.reset with mem := [(0x200, 0xF1), (0x201, 0x15)], dt := 9 })).map (fun t => t.dt) =
      some 0 := by decide

theorem witness_ticks :
    ({ State.reset with pending := [.tick, .tick, .step] } : State).pending = List.replicate 2 .tick ++ [.step] := by
  decide

/-- Two steps, a tick and a Step that reports the zero word: no reset, and neither runs a SET_DT or a SET_ST. -/
theorem witness_interleavedTicks :
    let s : State := { State.reset with pending := [.tick], dt := 9 }
    s.takeOp.1 ≠ .reset ∧ s.takeOp.1 ≠ .step ∧
    (nextOf (step s)).map (fun u => (u.takeOp.1, decodeWord u.fetchWord == .error .family0)) = some (.step, true) ∧
    (nextOf (Host.Core.run Sys2Proof.core 2 s)).map (fun t => (t.dt, t.pc)) = some (8, 0x202) := by decide

/-- T9, T10, and a load out of its turn. -/
theorem witness_romLoad :
    State.reset.loadOpen = true ∧ (List.replicate 3584 (0#8 : Byte)).length ≤ 3584 ∧
    (List.replicate 3585 (0#8 : Byte)).length > 3584 ∧ State.reset.closeLoad.loadOpen = false := by
  exact ⟨rfl, by rw [List.length_replicate], by rw [List.length_replicate]; decide, rfl⟩

/-- The first k of the placed image, at its last byte. -/
theorem witness_romLoad_index : 2 < ([0x12, 0x00, 0xAA] : List Byte).length := by decide

end Sys2Proof.Tests
end

/-! PROOFS. The general registers: read after write, no aliasing with memory, and their reset values
(spec/10_state.md section 2, R20 and R23). -/

namespace Sys2Proof.Machine

/-- The reset half of the register file's rules; R23 names VF among the registers that read 0. -/
@[simp] theorem reset_reg (x : Nibble) : State.reset.reg x = 0#8 := Vector.getElem_replicate _

/-- Settles O6: the read-after-write law of the register file, and the two frames that keep registers and memory
apart. -/
theorem registersHoldWhatWasLastWritten : Obligations.RegistersHoldWhatWasLastWritten := by
  intro s x y b a bs
  refine ⟨?readAfterWrite, ?memoryKept, ?registersKept⟩
  case readAfterWrite => exact reg_setReg s x y b
  case memoryKept => exact setReg_readByte s x b
  case registersKept => exact writeBytes_reg s a bs y

/-- Settles O51: every register by `reset_reg`; pc is a literal of the reset state. -/
theorem resetRegistersAndPc : Obligations.ResetRegistersAndPc :=
  ⟨reset_reg, rfl⟩

end Sys2Proof.Machine

/-! PROOFS. Main memory: a one-byte write, and the write of the byte already held (spec/20_memory.md, R60). -/

namespace Sys2Proof.Machine

/-- In canonical form a memory is determined by its reads, so a write that changes no read changes no cell. -/
theorem Memory.write_read_self (m : Memory) (a : Nat) (hm : Memory.wf m = true) (ha : a < Config.memSize) :
    Memory.write m a (Memory.read m a) = m := by
  have reads_kept : ∀ a', Memory.read (Memory.write m a (Memory.read m a)) a' = Memory.read m a' := by
    intro a'
    rw [Memory.read_write]
    split
    case isTrue same => rw [same]
    case isFalse => rfl
  exact Memory.eq_of_read_eq _ m (Memory.wf_write m a _ hm ha) hm reads_kept

/-- `Memory.read_write` for a state: the one-byte case of `State.writeBytes`. -/
theorem readByte_writeBytes_singleton (s : State) (a a' : Nat) (b : Byte) :
    (s.writeBytes a [b]).readByte a' = if a' = a then b else s.readByte a' :=
  Memory.read_write s.mem a a' b

/-- Writing back the byte a canonical memory holds at an address gives the same state (R60, last clause). -/
theorem writeBytes_readByte_self (s : State) (a : Nat) (hm : Memory.wf s.mem = true) (ha : a < Config.memSize) :
    s.writeBytes a [s.readByte a] = s :=
  congrArg (fun m => { s with mem := m }) (Memory.write_read_self s.mem a hm ha)

/-- Settles O7: the read law gives the first two clauses; the last rests on the canonical form, in which equal
reads are equal memories. -/
theorem memoryWritesChangeOneByte : Obligations.MemoryWritesChangeOneByte := by
  intro s a b ha
  refine ⟨?readAfterWrite, ?otherBytesKept, ?otherStateKept, ?rewriteChangesNothing⟩
  case readAfterWrite => rw [readByte_writeBytes_singleton, if_pos rfl]
  case otherBytesKept => exact fun a' hne => by rw [readByte_writeBytes_singleton, if_neg hne]
  case otherStateKept => rfl
  case rewriteChangesNothing => exact fun hm => writeBytes_readByte_self s a hm ha

end Sys2Proof.Machine

/-! PROOFS. The cycle and the timers (spec/40_cycle.md R131). Everything but LD_DT, SET_DT and SET_ST commutes with
putting other values in the timers. Commuting says both things at once: the timers are not read, since the outcome is
the same but for them, and they are not written, since they can be put back at their old values. -/

namespace Sys2Proof.Machine

/-- The state with both timers replaced. -/
def State.withTimers (s : State) (d e : Byte) : State := { s with dt := d, st := e }

/-- An update of the next state, if an outcome has one. -/
def mapNext (f : State → State) : Host.Outcome State Fault Refusal → Host.Outcome State Fault Refusal
  | .next s => .next (f s)
  | .fault r => .fault r
  | .refused r => .refused r

theorem push_withTimers (s : State) (w : Word) (d e : Byte) :
    (s.withTimers d e).push w = (s.push w).map (·.withTimers d e) := by
  by_cases room : s.sp.val < 16
  · rw [push_of_room s w room, push_of_room (s.withTimers d e) w room]; rfl
  · have full : s.sp.val = 16 := by omega
    rw [push_of_full s w full, push_of_full (s.withTimers d e) w full]; rfl

theorem pop_withTimers (s : State) (d e : Byte) :
    (s.withTimers d e).pop = s.pop.map fun p => (p.1, p.2.withTimers d e) := by
  by_cases used : 0 < s.sp.val
  · rw [pop_of_used s used, pop_of_used (s.withTimers d e) used]; rfl
  · have empty : s.sp.val = 0 := by omega
    rw [pop_of_empty s empty, pop_of_empty (s.withTimers d e) empty]; rfl

/-- Everything an instruction can do with the timers: commute with their replacement, read DT, write DT, write ST. -/
theorem exec_timer_cases (i : Instr) (s : State) :
    (∀ d e, exec i (s.withTimers d e) = mapNext (·.withTimers d e) (exec i s)) ∨
    (∃ x, i = .ldDt x) ∨ (∃ x, i = .setDt x) ∨ (∃ x, i = .setSt x) := by
  cases i with
  | ldDt x => exact .inr (.inl ⟨x, rfl⟩)
  | setDt x => exact .inr (.inr (.inl ⟨x, rfl⟩))
  | setSt x => exact .inr (.inr (.inr ⟨x, rfl⟩))
  | ret u =>
    refine .inl fun d e => ?_
    simp only [exec, execRet, pop_withTimers]
    cases s.pop <;> rfl
  | call nnn =>
    refine .inl fun d e => ?_
    have same_pc : (s.withTimers d e).pc = s.pc := rfl
    simp only [exec, execCall, push_withTimers, same_pc]
    cases s.push (s.pc + 2#16) <;> rfl
  | ldKey x =>
    refine .inl fun d e => ?_
    have same_key : (s.withTimers d e).lowestKey = s.lowestKey := rfl
    simp only [exec, execLdKey, same_key]
    cases s.lowestKey <;> rfl
  | drw x y n => exact .inl fun d e => by simp only [exec, execDrw, apply_ite (mapNext _)]; rfl
  | ldBcd x => exact .inl fun d e => by simp only [exec, execLdBcd, apply_ite (mapNext _)]; rfl
  | store x => exact .inl fun d e => by simp only [exec, execStore, apply_ite (mapNext _)]; rfl
  | load x => exact .inl fun d e => by simp only [exec, execLoad, apply_ite (mapNext _)]; rfl
  | _ => exact .inl fun d e => rfl

/-! An equation of `cycle` for each way it can go (R129, R310). -/

theorem cycle_of_halted {s : State} (hh : s.halted = true) : cycle s = .next s.stayHalted := by
  simp [cycle, hh]

theorem cycle_of_unfetchable {s : State} (hh : s.halted = false) (hf : s.fetchable = false) :
    cycle s = .next s.takeFetchOob := by
  simp [cycle, hh, hf]

theorem cycle_of_ok {s : State} {i : Instr} (hh : s.halted = false) (hf : s.fetchable = true)
    (hd : decodeWord s.fetchWord = .ok i) : cycle s = exec i s := by
  simp [cycle, hh, hf, hd]

theorem cycle_of_error {s : State} {r : Reject} (hh : s.halted = false) (hf : s.fetchable = true)
    (hd : decodeWord s.fetchWord = .error r) : cycle s = .next (s.report s.fetchWord) := by
  simp [cycle, hh, hf, hd]

/-- Everything a cycle can do with the timers, whatever values they hold: none of the tests before an instruction
depends on them, and the rest is `exec_timer_cases`. -/
theorem cycle_timer_cases (s : State) :
    (∀ d e, cycle (s.withTimers d e) = mapNext (·.withTimers d e) (cycle s)) ∨
    (∃ x, decodeWord s.fetchWord = .ok (.ldDt x) ∧
      ∀ d e, cycle (s.withTimers d e) = .next ((s.withTimers d e).setReg x d).next) ∨
    (∃ x, decodeWord s.fetchWord = .ok (.setDt x) ∧
      ∀ d e, cycle (s.withTimers d e) = .next (s.withTimers (s.reg x) e).next) ∨
    (∃ x, decodeWord s.fetchWord = .ok (.setSt x) ∧
      ∀ d e, cycle (s.withTimers d e) = .next (s.withTimers d (s.reg x)).next) := by
  rcases cycle_cases s with ⟨hh, hc⟩ | ⟨hh, hf, hc⟩ | ⟨hh, hf, i, hd, hc⟩ | ⟨hh, hf, r, hd, hc⟩
  case inl => exact .inl fun d e => hc ▸ cycle_of_halted (s := s.withTimers d e) hh
  case inr.inl => exact .inl fun d e => hc ▸ cycle_of_unfetchable (s := s.withTimers d e) hh hf
  case inr.inr.inr => exact .inl fun d e => hc ▸ cycle_of_error (s := s.withTimers d e) hh hf hd
  case inr.inr.inl =>
    have runs (d e : Byte) : cycle (s.withTimers d e) = exec i (s.withTimers d e) := cycle_of_ok hh hf hd
    rcases exec_timer_cases i s with commutes | ⟨x, rfl⟩ | ⟨x, rfl⟩ | ⟨x, rfl⟩
    · exact .inl fun d e => by rw [runs, hc, commutes]
    · exact .inr (.inl ⟨x, hd, runs⟩)
    · exact .inr (.inr (.inl ⟨x, hd, runs⟩))
    · exact .inr (.inr (.inr ⟨x, hd, runs⟩))

/-- Settles O45, by what the cycle does with the timers when they hold other values: the case where it commutes with
replacing them gives every clause at once, and the three timer instructions are read off their own outcomes. -/
theorem cyclesNeverTickATimer : Obligations.CyclesNeverTickATimer := by
  intro s t ht
  have unchanged : cycle (s.withTimers s.dt s.st) = .next t := ht
  rcases cycle_timer_cases s with commutes | ⟨x, hd, runs⟩ | ⟨x, hd, runs⟩ | ⟨x, hd, runs⟩
  case inl =>
    rw [ht] at commutes
    have kept : t.withTimers s.dt s.st = t := Host.Outcome.next.inj ((commutes _ _).symm.trans unchanged)
    have same_dt : t.dt = s.dt := (congrArg State.dt kept).symm
    have same_st : t.st = s.st := (congrArg State.st kept).symm
    refine ⟨.inl same_dt, .inl same_st, fun d _ => ⟨_, commutes d s.st, ?_⟩, fun e => ⟨_, commutes s.dt e, ?_⟩⟩
    · rw [← same_st]; rfl
    · rw [← same_dt]; rfl
  all_goals obtain rfl := Host.Outcome.next.inj ((runs _ _).symm.trans unchanged)
  case inr.inl =>
    exact ⟨.inl rfl, .inl rfl, fun _ other => absurd hd (other x), fun e => ⟨_, runs s.dt e, rfl⟩⟩
  case inr.inr.inl =>
    exact ⟨.inr ⟨x, hd, rfl⟩, .inl rfl, fun d _ => ⟨_, runs d s.st, rfl⟩, fun e => ⟨_, runs s.dt e, rfl⟩⟩
  case inr.inr.inr =>
    exact ⟨.inl rfl, .inr ⟨x, hd, rfl⟩, fun d _ => ⟨_, runs d s.st, rfl⟩, fun e => ⟨_, runs s.dt e, rfl⟩⟩

end Sys2Proof.Machine

/-! PROOFS. The decoder read backwards: the instruction decoded from a word encodes to that word, so the row of the
opcode table that the instruction is of holds of the word (spec/30_encoding.md R90 to R98). -/

namespace Sys2Proof.Laws

/-! A word is rebuilt from the fields a decoder reads off it and the ones it has tested. -/

theorem wordNNN_of_fields {w : Word} {f : Nibble} (hf : family w = f) : wordNNN f (fieldNNN w) = w :=
  hf ▸ (word_eq_wordNNN w).symm

theorem wordXNN_of_fields {w : Word} {f : Nibble} {nn : Byte} (hf : family w = f) (hn : fieldNN w = nn) :
    wordXNN f (fieldX w) nn = w :=
  hf ▸ hn ▸ (word_eq_wordXNN w).symm

theorem wordXYN_of_fields {w : Word} {f n : Nibble} (hf : family w = f) (hn : fieldN w = n) :
    wordXYN f (fieldX w) (fieldY w) n = w :=
  hf ▸ hn ▸ (word_eq_wordXYN w).symm

theorem encode_of_decodeFamily0 {w : Word} {i : Instr} (hf : family w = 0x0#4) (h : decodeFamily0 w = .ok i) :
    encode i = w := by
  unfold decodeFamily0 at h
  split_ifs at h <;> cases h <;> exact wordXNN_of_fields hf ‹_›

theorem encode_of_decodeFamily8 {w : Word} {i : Instr} (hf : family w = 0x8#4) (h : decodeFamily8 w = .ok i) :
    encode i = w := by
  unfold decodeFamily8 at h
  split at h <;> cases h <;> exact wordXYN_of_fields hf ‹_›

theorem encode_of_decodeFamilyE {w : Word} {i : Instr} (hf : family w = 0xE#4) (h : decodeFamilyE w = .ok i) :
    encode i = w := by
  unfold decodeFamilyE at h
  split_ifs at h <;> cases h <;> exact wordXNN_of_fields hf ‹_›

theorem encode_of_decodeFamilyF {w : Word} {i : Instr} (hf : family w = 0xF#4) (h : decodeFamilyF w = .ok i) :
    encode i = w := by
  unfold decodeFamilyF at h
  split_ifs at h <;> cases h <;> exact wordXNN_of_fields hf ‹_›

/-- The decoder's two levels, family by family: no bit of the word is lost in the instruction. -/
theorem encode_of_decodeWord {w : Word} {i : Instr} (h : decodeWord w = .ok i) : encode i = w := by
  unfold decodeWord at h
  split at h
  case h_1 hf => exact encode_of_decodeFamily0 hf h
  case h_9 hf => exact encode_of_decodeFamily8 hf h
  case h_15 hf => exact encode_of_decodeFamilyE hf h
  case h_16 =>
    have hf : family w = 0xF#4 := by
      simp only [imp_false] at *
      bv_omega
    exact encode_of_decodeFamilyF hf h
  case h_2 hf | h_3 hf | h_11 hf | h_12 hf => cases h; exact wordNNN_of_fields hf
  case h_4 hf | h_5 hf | h_7 hf | h_8 hf | h_13 hf => cases h; exact wordXNN_of_fields hf rfl
  case h_6 hf | h_10 hf | h_14 hf => cases h; exact wordXYN_of_fields hf rfl

/-- What mask 0xF0FF tests: the family and the low byte. -/
theorem mask_family_nn_eq_iff (w : Word) (f : Nibble) (nn : Byte) :
    w &&& 0xF0FF#16 = wordXNN f 0x0#4 nn ↔ family w = f ∧ fieldNN w = nn := by
  simp only [← BitVec.toNat_inj, mask_family_nn, wordXNN_toNat, family_toNat, fieldNN_toNat,
    BitVec.toNat_ofNat]
  have := nn.isLt
  omega

end Sys2Proof.Laws

namespace Sys2Proof.Machine

/-- A row of the opcode table is read as it says if its words decode to its instructions and these encode into it:
the other direction is `encode_of_decodeWord`. -/
theorem encodedAs_of_row {mask val : Word} {mk : Word → Instr} (hrow : ∀ w, encode (mk w) &&& mask = val)
    (hdec : ∀ w, w &&& mask = val → decodeWord w = .ok (mk w)) : EncodedAs mask val mk := by
  refine fun w => ⟨hdec w, fun h => ?_⟩
  have roundTrip : encode (mk w) = w := Laws.encode_of_decodeWord h
  simpa only [roundTrip] using hrow w

end Sys2Proof.Machine

/-! PROOFS. Family 0x0: CLS and RET (spec/41_family0_clear_return.md R140, R141). -/

namespace Sys2Proof.Machine

theorem decodeWord_of_family0 {w : Word} (hf : family w = 0x0#4) : decodeWord w = decodeFamily0 w := by
  simp only [decodeWord, hf]

theorem encodedAs_cls : EncodedAs 0xF0FF#16 0x00E0#16 (fun w => .cls (fieldX w)) := by
  refine encodedAs_of_row (fun w => Laws.MaskMatch.cls (fieldX w)) fun w hw => ?_
  obtain ⟨hf, hnn⟩ := (Laws.mask_family_nn_eq_iff w 0x0#4 0xE0#8).1 hw
  rw [decodeWord_of_family0 hf, decodeFamily0, if_pos hnn]

theorem encodedAs_ret : EncodedAs 0xF0FF#16 0x00EE#16 (fun w => .ret (fieldX w)) := by
  refine encodedAs_of_row (fun w => Laws.MaskMatch.ret (fieldX w)) fun w hw => ?_
  obtain ⟨hf, hnn⟩ := (Laws.mask_family_nn_eq_iff w 0x0#4 0xEE#8).1 hw
  have not_cls : fieldNN w ≠ 0xE0#8 := by rw [hnn]; decide
  rw [decodeWord_of_family0 hf, decodeFamily0, if_neg not_cls, if_pos hnn]

@[simp] theorem blankScreen_pixel (r : Fin 32) (c : Fin 64) : blankScreen.pixel r c = false := by
  simp [Screen.pixel, blankScreen]

theorem exec_cls (u : Nibble) (s : State) : exec (.cls u) s = .next (s.setScreen blankScreen).next := rfl

/-- RET with an entry in use: the decremented SP, and a jump to the entry it left (R141). -/
theorem exec_ret_of_used (u : Nibble) (s : State) (h : 0 < s.sp.val) :
    exec (.ret u) s =
      .next (State.goto { s with sp := ⟨s.sp.val - 1, by omega⟩ } (s.stack[s.sp.val - 1]'(by omega))) := by
  simp only [exec, execRet, pop_of_used s h]

theorem exec_ret_of_empty (u : Nibble) (s : State) (h : s.sp.val = 0) :
    exec (.ret u) s = .next (s.takeFatal .stackUnderflow (encode (.ret u)) 0) := by
  simp only [exec, execRet, pop_of_empty s h]

/-- Settles O14: CLS is the blank screen and then the default end of an instruction, which leaves everything but pc
and the status as the new screen found it. -/
theorem clsClearsEveryPixel : Obligations.ClsClearsEveryPixel := by
  refine ⟨encodedAs_cls, fun u s => ⟨_, exec_cls u s, blankScreen_pixel, rfl, advanced_next rfl, ?frame⟩⟩
  case frame =>
    obtain ⟨regs, idx, mem, stack, timers, -, latches, host⟩ :=
      onlyRegs_goto (s.setScreen blankScreen) (s.pc + 2#16)
    exact ⟨regs, idx, mem, stack, timers, latches, host⟩

/-- Settles O15: with an entry in use RET is a jump from the state with SP decremented, and the jump keeps the rest;
with none it takes the fatal condition. -/
theorem retPopsOrUnderflows : Obligations.RetPopsOrUnderflows := by
  refine ⟨encodedAs_ret, fun u s used => ⟨_, exec_ret_of_used u s used, rfl, rfl, rfl, rfl, ?frame⟩,
    fun u s empty => ⟨_, exec_ret_of_empty u s empty, ?underflow⟩⟩
  case frame =>
    obtain ⟨regs, idx, mem, -, timers, screen, latches, host⟩ :=
      onlyRegs_goto { s with sp := ⟨s.sp.val - 1, by omega⟩ } (s.stack[s.sp.val - 1]'(by omega))
    exact ⟨regs, idx, mem, timers, screen, latches, host⟩
  case underflow => exact tookFatal_takeFatal s _ _ 0 (by decide)

end Sys2Proof.Machine

/-! PROOFS. JP, CALL and the register skips (spec/42_jump_call_skip.md R150 to R155). Each is the only instruction of
its family, so the mask of its row of the opcode table tests the family alone. -/

namespace Sys2Proof.Laws

/-- What mask 0xF000 tests: the family. -/
theorem mask_family_eq_iff (w : Word) (f : Nibble) : w &&& 0xF000#16 = wordNNN f 0#12 ↔ family w = f := by
  simp only [← BitVec.toNat_inj, mask_family, wordNNN_toNat, family_toNat, BitVec.toNat_ofNat]
  omega

end Sys2Proof.Laws

namespace Sys2Proof.Machine

/-- `encodedAs_of_row` for a family that holds one instruction. -/
theorem encodedAs_of_family (f : Nibble) {mk : Word → Instr}
    (hrow : ∀ w, encode (mk w) &&& 0xF000#16 = wordNNN f 0#12)
    (hdec : ∀ w, family w = f → decodeWord w = .ok (mk w)) : EncodedAs 0xF000#16 (wordNNN f 0#12) mk :=
  encodedAs_of_row hrow fun w hw => hdec w ((Laws.mask_family_eq_iff w f).1 hw)

theorem encodedAs_jp : EncodedAs 0xF000#16 0x1000#16 (fun w => .jp (fieldNNN w)) :=
  encodedAs_of_family 0x1#4 (fun w => Laws.MaskMatch.jp (fieldNNN w)) fun w hf => by simp only [decodeWord, hf]

theorem encodedAs_call : EncodedAs 0xF000#16 0x2000#16 (fun w => .call (fieldNNN w)) :=
  encodedAs_of_family 0x2#4 (fun w => Laws.MaskMatch.call (fieldNNN w)) fun w hf => by simp only [decodeWord, hf]

theorem encodedAs_seImm : EncodedAs 0xF000#16 0x3000#16 (fun w => .seImm (fieldX w) (fieldNN w)) :=
  encodedAs_of_family 0x3#4 (fun w => Laws.MaskMatch.seImm (fieldX w) (fieldNN w)) fun w hf => by
    simp only [decodeWord, hf]

theorem encodedAs_sneImm : EncodedAs 0xF000#16 0x4000#16 (fun w => .sneImm (fieldX w) (fieldNN w)) :=
  encodedAs_of_family 0x4#4 (fun w => Laws.MaskMatch.sneImm (fieldX w) (fieldNN w)) fun w hf => by
    simp only [decodeWord, hf]

theorem encodedAs_seReg : EncodedAs 0xF000#16 0x5000#16 (fun w => .seReg (fieldX w) (fieldY w) (fieldN w)) :=
  encodedAs_of_family 0x5#4 (fun w => Laws.MaskMatch.seReg (fieldX w) (fieldY w) (fieldN w)) fun w hf => by
    simp only [decodeWord, hf]

theorem encodedAs_sneReg : EncodedAs 0xF000#16 0x9000#16 (fun w => .sneReg (fieldX w) (fieldY w) (fieldN w)) :=
  encodedAs_of_family 0x9#4 (fun w => Laws.MaskMatch.sneReg (fieldX w) (fieldY w) (fieldN w)) fun w hf => by
    simp only [decodeWord, hf]

/-! ### Jumps and calls -/

theorem exec_jp (nnn : Addr12) (s : State) : exec (.jp nnn) s = .next (s.goto (target nnn)) := rfl

/-- CALL with a slot free: a jump from the state with the return address pushed (R151). -/
theorem exec_call_of_room (nnn : Addr12) (s : State) (h : s.sp.val < 16) :
    exec (.call nnn) s =
      .next (State.goto { s with stack := s.stack.set s.sp.val (s.pc + 2#16) h, sp := ⟨s.sp.val + 1, by omega⟩ }
        (target nnn)) := by
  simp only [exec, execCall, push_of_room s (s.pc + 2#16) h]

theorem exec_call_of_full (nnn : Addr12) (s : State) (h : s.sp.val = 16) :
    exec (.call nnn) s = .next (s.takeFatal .stackOverflow (encode (.call nnn)) 0) := by
  simp only [exec, execCall, push_of_full s (s.pc + 2#16) h]

/-- Of the 12-bit targets only the last byte of memory has no byte after it to fetch. -/
theorem fetchable_goto_target_eq_false_iff (s : State) (nnn : Addr12) :
    (s.goto (target nnn)).fetchable = false ↔ nnn = 0xFFF#12 := by
  have bound := nnn.isLt
  rw [← Bool.not_eq_true, fetchable_iff, goto_pc, target_toNat, ← BitVec.toNat_inj, BitVec.toNat_ofNat]
  omega

/-- A jump to the pc it starts from changes the status alone. -/
theorem goto_self_with_status (s : State) (w : Word) (h : w = s.pc) : { s.goto w with status := s.status } = s := by
  rw [h]; rfl

/-- Settles O16: JP is a jump, which writes pc and the status only; the target is nnn zero-extended. -/
theorem jpSetsPc : Obligations.JpSetsPc := by
  refine ⟨encodedAs_jp, fun nnn s => ⟨_, exec_jp nnn s, target_toNat nnn, rfl, onlyRegs_goto s _,
    fetchable_goto_target_eq_false_iff s nnn, fun self => ?selfJump⟩⟩
  case selfJump =>
    have same_pc : target nnn = s.pc := BitVec.eq_of_toNat_eq ((target_toNat nnn).trans self.symm)
    exact goto_self_with_status s _ same_pc

/-- Settles O17: with a slot free CALL is a jump from the state with the return address pushed, and the jump keeps the
rest; with none it takes the fatal condition. -/
theorem callPushesOrOverflows : Obligations.CallPushesOrOverflows := by
  refine ⟨encodedAs_call, fun nnn s room => ⟨_, exec_call_of_room nnn s room, ?pushed, rfl, ?otherSlots,
    target_toNat nnn, rfl, ?frame⟩, fun nnn s full => ⟨_, exec_call_of_full nnn s full, ?overflow⟩⟩
  case pushed => rw [goto_stack, Vector.getElem_set_self, toNat_add_two]
  case otherSlots => exact fun k other => Vector.getElem_set_ne room k.isLt (Ne.symm other)
  case frame =>
    obtain ⟨regs, idx, mem, -, timers, screen, latches, host⟩ :=
      onlyRegs_goto { s with stack := s.stack.set s.sp.val (s.pc + 2#16) room, sp := ⟨s.sp.val + 1, by omega⟩ }
        (target nnn)
    exact ⟨regs, idx, mem, timers, screen, latches, host⟩
  case overflow => exact tookFatal_takeFatal s _ _ 0 (by decide)

/-! ### Skips -/

/-- What a skip does, with its tested bit read as the condition it decides (R126). -/
theorem exec_skips {i : Instr} {s : State} {c : Bool} {cond : Prop} (hexec : exec i s = .next (s.skipIf c))
    (hc : c = true ↔ cond) : ∃ t, exec i s = .next t ∧ Skipped cond s t ∧ OnlyRegs [] s t := by
  obtain rfl := propext hc
  exact ⟨_, hexec, skipped_skipIf s c, onlyRegs_goto s _⟩

/-- Settles O19: each is a skip on the test of its condition. -/
theorem immediateSkips : Obligations.ImmediateSkips :=
  ⟨encodedAs_seImm, encodedAs_sneImm, fun _ _ _ => ⟨exec_skips rfl beq_iff_eq, exec_skips rfl bne_iff_ne⟩⟩

/-- Settles O20: each is a skip on the test of its condition, in which the low nibble has no part. -/
theorem registerSkips : Obligations.RegisterSkips :=
  ⟨encodedAs_seReg, encodedAs_sneReg, fun _ _ _ _ => ⟨exec_skips rfl beq_iff_eq, exec_skips rfl bne_iff_ne⟩⟩

end Sys2Proof.Machine

/-! PROOFS. LD_IMM and ADD_IMM (spec/43_immediate.md R170, R171): each is the only instruction of its family, and each
is a write of one register followed by the default advance of pc. -/

namespace Sys2Proof.Machine

theorem encodedAs_ldImm : EncodedAs 0xF000#16 0x6000#16 (fun w => .ldImm (fieldX w) (fieldNN w)) :=
  encodedAs_of_family 0x6#4 (fun w => Laws.MaskMatch.ldImm (fieldX w) (fieldNN w)) fun w hf => by
    simp only [decodeWord, hf]

theorem encodedAs_addImm : EncodedAs 0xF000#16 0x7000#16 (fun w => .addImm (fieldX w) (fieldNN w)) :=
  encodedAs_of_family 0x7#4 (fun w => Laws.MaskMatch.addImm (fieldX w) (fieldNN w)) fun w hf => by
    simp only [decodeWord, hf]

theorem exec_ldImm (x : Nibble) (nn : Byte) (s : State) : exec (.ldImm x nn) s = .next (s.setReg x nn).next := rfl

/-- The sum is taken of the numbers and cut to 8 bits, and no flag is written (R171). -/
theorem exec_addImm (x : Nibble) (nn : Byte) (s : State) :
    exec (.addImm x nn) s = .next (s.setReg x (BitVec.ofNat 8 ((s.reg x).toNat + nn.toNat))).next := rfl

/-- What an instruction does that writes one register and ends by default (R20, R25). -/
theorem exec_writes_reg {i : Instr} {s : State} {x : Nibble} {b : Byte}
    (hexec : exec i s = .next (s.setReg x b).next) :
    ∃ t, exec i s = .next t ∧ t.reg x = b ∧ Advanced s t ∧ OnlyRegs [x] s t := by
  have read_back : (s.setReg x b).next.reg x = b := by rw [next_eq_goto, goto_reg, reg_setReg, if_pos rfl]
  exact ⟨_, hexec, read_back, advanced_next rfl, onlyRegs_setReg s x b _⟩

/-- Settles O21: each writes V[x] and nothing else; the value ADD_IMM writes is the sum modulo 256. -/
theorem immediateLoadsAndAdds : Obligations.ImmediateLoadsAndAdds := by
  refine ⟨encodedAs_ldImm, encodedAs_addImm, fun x nn s => ⟨exec_writes_reg (exec_ldImm x nn s), ?add⟩⟩
  case add =>
    obtain ⟨t, runs, sum, advanced, frame⟩ := exec_writes_reg (exec_addImm x nn s)
    exact ⟨t, runs, by rw [sum, BitVec.toNat_ofNat], advanced, frame⟩

end Sys2Proof.Machine

/-! PROOFS. The ALU family 0x8 (spec/44_alu.md R180 to R186, R188). Its words differ in the low nibble; the
instructions end in the write of one register, or of one register and then VF. -/

namespace Sys2Proof.Laws

/-- What mask 0xF00F tests: the family and the low nibble. -/
theorem mask_family_n_eq_iff (w : Word) (f n : Nibble) :
    w &&& 0xF00F#16 = wordXYN f 0x0#4 0x0#4 n ↔ family w = f ∧ fieldN w = n := by
  simp only [← BitVec.toNat_inj, mask_family_n, wordXYN_toNat, family_toNat, fieldN_toNat, BitVec.toNat_ofNat]
  have := n.isLt
  omega

end Sys2Proof.Laws

namespace Sys2Proof.Machine

/-! ### The words -/

theorem decodeWord_of_family8 {w : Word} (hf : family w = 0x8#4) : decodeWord w = decodeFamily8 w := by
  simp only [decodeWord, hf]

/-- `encodedAs_of_row` for an instruction that the low nibble picks out of family 0x8. -/
theorem encodedAs_of_family8 (n : Nibble) {mk : Word → Instr}
    (hrow : ∀ w, encode (mk w) &&& 0xF00F#16 = wordXYN 0x8#4 0x0#4 0x0#4 n)
    (hdec : ∀ w, fieldN w = n → decodeFamily8 w = .ok (mk w)) :
    EncodedAs 0xF00F#16 (wordXYN 0x8#4 0x0#4 0x0#4 n) mk := by
  refine encodedAs_of_row hrow fun w hw => ?_
  obtain ⟨hf, hn⟩ := (Laws.mask_family_n_eq_iff w 0x8#4 n).1 hw
  rw [decodeWord_of_family8 hf, hdec w hn]

theorem encodedAs_ldReg : EncodedAs 0xF00F#16 0x8000#16 (fun w => .ldReg (fieldX w) (fieldY w)) :=
  encodedAs_of_family8 0x0#4 (fun w => Laws.MaskMatch.ldReg (fieldX w) (fieldY w)) fun w hn => by
    simp only [decodeFamily8, hn]

theorem encodedAs_or : EncodedAs 0xF00F#16 0x8001#16 (fun w => .or (fieldX w) (fieldY w)) :=
  encodedAs_of_family8 0x1#4 (fun w => Laws.MaskMatch.or (fieldX w) (fieldY w)) fun w hn => by
    simp only [decodeFamily8, hn]

theorem encodedAs_and : EncodedAs 0xF00F#16 0x8002#16 (fun w => .and (fieldX w) (fieldY w)) :=
  encodedAs_of_family8 0x2#4 (fun w => Laws.MaskMatch.and (fieldX w) (fieldY w)) fun w hn => by
    simp only [decodeFamily8, hn]

theorem encodedAs_xor : EncodedAs 0xF00F#16 0x8003#16 (fun w => .xor (fieldX w) (fieldY w)) :=
  encodedAs_of_family8 0x3#4 (fun w => Laws.MaskMatch.xor (fieldX w) (fieldY w)) fun w hn => by
    simp only [decodeFamily8, hn]

theorem encodedAs_addVxVy : EncodedAs 0xF00F#16 0x8004#16 (fun w => .addVxVy (fieldX w) (fieldY w)) :=
  encodedAs_of_family8 0x4#4 (fun w => Laws.MaskMatch.addVxVy (fieldX w) (fieldY w)) fun w hn => by
    simp only [decodeFamily8, hn]

theorem encodedAs_subVxVy : EncodedAs 0xF00F#16 0x8005#16 (fun w => .subVxVy (fieldX w) (fieldY w)) :=
  encodedAs_of_family8 0x5#4 (fun w => Laws.MaskMatch.subVxVy (fieldX w) (fieldY w)) fun w hn => by
    simp only [decodeFamily8, hn]

theorem encodedAs_subn : EncodedAs 0xF00F#16 0x8007#16 (fun w => .subn (fieldX w) (fieldY w)) :=
  encodedAs_of_family8 0x7#4 (fun w => Laws.MaskMatch.subn (fieldX w) (fieldY w)) fun w hn => by
    simp only [decodeFamily8, hn]

/-! ### Copy and bitwise operations -/

theorem exec_ldReg (x y : Nibble) (s : State) : exec (.ldReg x y) s = .next (s.setReg x (s.reg y)).next := rfl

theorem exec_or (x y : Nibble) (s : State) :
    exec (.or x y) s = .next (s.setReg x (s.reg x ||| s.reg y)).next := rfl

theorem exec_and (x y : Nibble) (s : State) :
    exec (.and x y) s = .next (s.setReg x (s.reg x &&& s.reg y)).next := rfl

theorem exec_xor (x y : Nibble) (s : State) :
    exec (.xor x y) s = .next (s.setReg x (s.reg x ^^^ s.reg y)).next := rfl

/-- `exec_writes_reg`, with the byte written given bit by bit. -/
theorem exec_writes_bits {i : Instr} {s : State} {x : Nibble} {b : Byte} {bit : Nat → Bool}
    (hexec : exec i s = .next (s.setReg x b).next) (hbit : ∀ k, b.getLsbD k = bit k) :
    ∃ t, exec i s = .next t ∧ (∀ k, (t.reg x).getLsbD k = bit k) ∧ Advanced s t ∧ OnlyRegs [x] s t := by
  obtain ⟨t, runs, written, advanced, frame⟩ := exec_writes_reg hexec
  exact ⟨t, runs, fun k => by rw [written, hbit], advanced, frame⟩

/-- Settles O22: each writes one register, and a bit of a bitwise operation is the operation on the bits. -/
theorem copyAndBitwise : Obligations.CopyAndBitwise := by
  refine ⟨encodedAs_ldReg, encodedAs_or, encodedAs_and, encodedAs_xor, fun x y s => ⟨?copy, ?or, ?and, ?xor⟩⟩
  case copy => exact exec_writes_reg (exec_ldReg x y s)
  case or => exact exec_writes_bits (exec_or x y s) fun _ => BitVec.getLsbD_or
  case and => exact exec_writes_bits (exec_and x y s) fun _ => BitVec.getLsbD_and
  case xor => exact exec_writes_bits (exec_xor x y s) fun _ => BitVec.getLsbD_xor

/-! ### Arithmetic with a flag -/

theorem exec_addVxVy (x y : Nibble) (s : State) :
    exec (.addVxVy x y) s = .next (s.setFlagged x (addFlagged (s.reg x) (s.reg y))).next := rfl

theorem exec_subVxVy (x y : Nibble) (s : State) :
    exec (.subVxVy x y) s = .next (s.setFlagged x (subFlagged (s.reg x) (s.reg y))).next := rfl

/-- SUBN is the subtraction with the operands exchanged (R188). -/
theorem exec_subn (x y : Nibble) (s : State) :
    exec (.subn x y) s = .next (s.setFlagged x (subFlagged (s.reg y) (s.reg x))).next := rfl

theorem addFlagged_result_toNat (a b : Byte) : (addFlagged a b).result.toNat = (a.toNat + b.toNat) % 256 :=
  BitVec.toNat_ofNat _ _

theorem addFlagged_flag_iff (a b : Byte) : (addFlagged a b).flag = true ↔ a.toNat + b.toNat > 255 :=
  decide_eq_true_iff

/-- The difference is an integer, which may be negative, cut to 8 bits; 256 more keeps it a natural number. -/
theorem subFlagged_result_toNat (a b : Byte) :
    (subFlagged a b).result.toNat = (a.toNat + 256 - b.toNat) % 256 := by
  have := b.isLt
  rw [subFlagged, BitVec.toNat_ofInt]
  omega

theorem subFlagged_flag_iff (a b : Byte) : (subFlagged a b).flag = true ↔ a.toNat ≥ b.toNat := decide_eq_true_iff

/-- What an instruction does that writes a result and then a flag, and ends by default (R25, R28): VF reads the
condition the flag decides, also when VF is the result's register. -/
theorem exec_writes_flagged {i : Instr} {s : State} {x : Nibble} {f : Flagged} {cond : Prop}
    (hexec : exec i s = .next (s.setFlagged x f).next) (hflag : f.flag = true ↔ cond) :
    ∃ t, exec i s = .next t ∧ (x ≠ 0xF#4 → t.reg x = f.result) ∧ (cond → t.reg 0xF#4 = 1#8) ∧
      (¬cond → t.reg 0xF#4 = 0#8) ∧ Advanced s t ∧ OnlyRegs [x, 0xF#4] s t := by
  obtain rfl := propext hflag
  refine ⟨_, hexec, ?result, ?flagSet, ?flagClear, advanced_next rfl, onlyRegs_setFlagged s x f _⟩
  case result => intro hx; simp [hx]
  case flagSet => intro hset; simp [hset]
  case flagClear => intro hclear; simp [hclear]

/-- A subtraction, whichever operand is the minuend (R186, R188). -/
theorem exec_subtracts {i : Instr} {s : State} {x : Nibble} {a b : Byte}
    (hexec : exec i s = .next (s.setFlagged x (subFlagged a b)).next) :
    ∃ t, exec i s = .next t ∧ (x ≠ 0xF#4 → (t.reg x).toNat = (a.toNat + 256 - b.toNat) % 256) ∧
      (a.toNat ≥ b.toNat → t.reg 0xF#4 = 1#8) ∧ (a.toNat < b.toNat → t.reg 0xF#4 = 0#8) ∧
      Advanced s t ∧ OnlyRegs [x, 0xF#4] s t := by
  obtain ⟨t, runs, difference, noBorrow, borrow, advanced, frame⟩ :=
    exec_writes_flagged hexec (subFlagged_flag_iff a b)
  exact ⟨t, runs, fun hx => by rw [difference hx, subFlagged_result_toNat], noBorrow,
    fun lt => borrow (Nat.not_le.2 lt), advanced, frame⟩

/-- Settles O23: a flagged write of the sum and the carry of the two registers as they were. -/
theorem addSetsSumAndCarry : Obligations.AddSetsSumAndCarry := by
  refine ⟨encodedAs_addVxVy, fun x y s => ?_⟩
  obtain ⟨t, runs, sum, carry, noCarry, advanced, frame⟩ :=
    exec_writes_flagged (exec_addVxVy x y s) (addFlagged_flag_iff _ _)
  exact ⟨t, runs, fun hx => by rw [sum hx, addFlagged_result_toNat], carry,
    fun le => noCarry (Nat.not_lt.2 le), advanced, frame⟩

/-- Settles O24: both are the one subtraction, with the operands in either order. -/
theorem subtractionsSetDifferenceAndNoBorrow : Obligations.SubtractionsSetDifferenceAndNoBorrow :=
  ⟨encodedAs_subVxVy, encodedAs_subn, fun x y s =>
    ⟨exec_subtracts (exec_subVxVy x y s), exec_subtracts (exec_subn x y s)⟩⟩

end Sys2Proof.Machine

/-! PROOFS. JP_V0 (spec/45_index_offset_random.md R201): the only instruction of its family, a jump to the sum of two
zero-extended operands that is too small to wrap at 16 bits. -/

namespace Sys2Proof.Machine

theorem encodedAs_jpV0 : EncodedAs 0xF000#16 0xB000#16 (fun w => .jpV0 (fieldNNN w)) :=
  encodedAs_of_family 0xB#4 (fun w => Laws.MaskMatch.jpV0 (fieldNNN w)) fun w hf => by simp only [decodeWord, hf]

theorem exec_jpV0 (nnn : Addr12) (s : State) :
    exec (.jpV0 nnn) s = .next (s.goto (target nnn + addend (s.reg 0x0#4))) := rfl

/-- A 12-bit and an 8-bit number sum without a carry out of 16 bits, so the sum is that of the numbers. -/
theorem target_add_addend_toNat (nnn : Addr12) (b : Byte) :
    (target nnn + addend b).toNat = nnn.toNat + b.toNat := by
  have no_carry : (target nnn).toNat + (addend b).toNat < 2 ^ 16 := by
    rw [target_toNat, addend_toNat]
    have := nnn.isLt
    have := b.isLt
    omega
  rw [BitVec.toNat_add_of_lt no_carry, target_toNat, addend_toNat]

/-- The greatest target is 0xFFF + 0xFF, beyond main memory (R201). -/
theorem target_add_addend_le (nnn : Addr12) (b : Byte) : (target nnn + addend b).toNat ≤ 0x10FE := by
  have := nnn.isLt
  have := b.isLt
  rw [target_add_addend_toNat]
  omega

/-- Settles O27: JP_V0 is a jump, which writes pc and the status only; its target is the sum that does not wrap. -/
theorem jpV0AddsV0 : Obligations.JpV0AddsV0 :=
  ⟨encodedAs_jpV0, fun nnn s => ⟨_, exec_jpV0 nnn s, target_add_addend_toNat nnn (s.reg 0x0#4),
    target_add_addend_le nnn (s.reg 0x0#4), rfl, onlyRegs_goto s _⟩⟩

end Sys2Proof.Machine

/-! PROOFS. DRW (spec/46_draw.md R210 to R216). Each row of a sprite XORs a set of bits onto the screen and collects the
collisions; rows of one sprite lie on different screen rows, so the rows together XOR the union of their bits, and the
collisions they collect are those with the screen as it was before the first row. -/

namespace Sys2Proof.Machine

/-! ### Drawing a set of bits -/

/-- From screen and collision `p` to `q` the bits are XORed onto the screen, and a bit 1 on a set pixel of `p` is a
collision (R212). -/
def XorsBits (bits : Fin 32 → Fin 64 → Bool) (p q : Screen × Bool) : Prop :=
  (∀ r c, q.1.pixel r c = (p.1.pixel r c ^^ bits r c)) ∧
  (q.2 = true ↔ p.2 = true ∨ ∃ r c, bits r c = true ∧ p.1.pixel r c = true)

theorem xorsBits_none (p : Screen × Bool) : XorsBits (fun _ _ => false) p p := by
  simp [XorsBits]

/-- Two drawings in a row are one drawing of both, if they have no pixel in common: the second then meets the pixels
the first one found. -/
theorem XorsBits.trans {bits bits' : Fin 32 → Fin 64 → Bool} {p q u : Screen × Bool} (first : XorsBits bits p q)
    (second : XorsBits bits' q u) (disjoint : ∀ r c, bits' r c = true → bits r c = false) :
    XorsBits (fun r c => bits r c || bits' r c) p u := by
  obtain ⟨pixel_q, collision_q⟩ := first
  obtain ⟨pixel_u, collision_u⟩ := second
  have found : ∀ r c, bits' r c = true → q.1.pixel r c = p.1.pixel r c := fun r c bit => by
    rw [pixel_q, disjoint r c bit, Bool.xor_false]
  constructor
  · intro r c
    rw [pixel_u]
    cases bit : bits' r c with
    | false => simp only [bit, pixel_q, Bool.xor_false, Bool.or_false]
    | true => simp only [bit, found r c bit, Bool.or_true]
  · have met : (∃ r c, bits' r c = true ∧ q.1.pixel r c = true) ↔
        ∃ r c, bits' r c = true ∧ p.1.pixel r c = true :=
      exists₂_congr fun r c => and_congr_right fun bit => by rw [found r c bit]
    simp only [collision_u, collision_q, met, Bool.or_eq_true, or_and_right, exists_or, or_assoc]

/-! ### The bits of a sprite -/

/-- How far row `r` lies below the sprite's top edge, around the edge of the screen. -/
def rowOffset (vy : Byte) (r : Fin 32) : Nat := (r.val + 256 - vy.toNat) % 32

theorem rowOffset_eq_iff (vy : Byte) (r : Fin 32) (m : Nat) (hm : m < 32) :
    rowOffset vy r = m ↔ r = wrapRow (vy.toNat + m) := by
  have := vy.isLt
  have := r.isLt
  simp only [rowOffset, wrapRow, Fin.ext_iff]
  omega

/-- The bit that sprite row `row`, of byte `b`, puts on a pixel. -/
def rowBit (vx vy : Byte) (row : Nat) (b : Byte) (r : Fin 32) (c : Fin 64) : Bool :=
  decide (rowOffset vy r = row) && decide (colOffset vx c < 8) && b.getLsbD (7 - colOffset vx c)

/-- The bit that the sprite rows from `row` on put on a pixel; beyond the last row there is none. -/
def rowsBit (vx vy : Byte) (row : Nat) (bs : List Byte) (r : Fin 32) (c : Fin 64) : Bool :=
  decide (row ≤ rowOffset vy r) && decide (colOffset vx c < 8) &&
    (bs.getD (rowOffset vy r - row) 0#8).getLsbD (7 - colOffset vx c)

theorem rowsBit_nil (vx vy : Byte) (row : Nat) : rowsBit vx vy row [] = fun _ _ => false := by
  funext r c
  simp [rowsBit]

theorem rowsBit_cons (vx vy : Byte) (row : Nat) (b : Byte) (bs : List Byte) :
    rowsBit vx vy row (b :: bs) = fun r c => rowBit vx vy row b r c || rowsBit vx vy (row + 1) bs r c := by
  funext r c
  rcases Nat.lt_trichotomy (rowOffset vy r) row with above | rfl | below
  · simp [rowsBit, rowBit, Nat.not_le.2 above, Nat.ne_of_lt above, Nat.not_le.2 (Nat.lt_succ_of_lt above)]
  · simp [rowsBit, rowBit]
  · have next : rowOffset vy r - row = rowOffset vy r - (row + 1) + 1 := by omega
    simp [rowsBit, rowBit, next, Nat.le_of_lt below, Nat.ne_of_gt below, Nat.succ_le_of_lt below]

/-- The rows from the next one on lie on other screen rows. -/
theorem rowBit_eq_false_of_rowsBit_succ {vx vy : Byte} {row : Nat} {b : Byte} {bs : List Byte} {r : Fin 32}
    {c : Fin 64} (bit : rowsBit vx vy (row + 1) bs r c = true) : rowBit vx vy row b r c = false := by
  simp only [rowsBit, Bool.and_eq_true, decide_eq_true_eq] at bit
  obtain ⟨⟨below, -⟩, -⟩ := bit
  have other : rowOffset vy r ≠ row := Nat.ne_of_gt below
  simp [rowBit, other]

/-- The sprite bit on a pixel is that of the bytes DRW reads. -/
theorem rowsBit_readBytes (s : State) (vx vy : Byte) (n : Nibble) :
    rowsBit vx vy 0 (s.readBytes s.idx.toNat n.toNat) = s.spriteBit vx vy n := by
  funext r c
  have byte : (s.readBytes s.idx.toNat n.toNat).getD (rowOffset vy r) 0#8 =
      if rowOffset vy r < n.toNat then s.readByte (s.idx.toNat + rowOffset vy r) else 0#8 := by
    split
    case isTrue inside =>
      rw [← getElem_readBytes s s.idx.toNat n.toNat _ (by rwa [readBytes_length])]
      exact List.getD_eq_getElem _ _ _
    case isFalse outside => exact List.getD_eq_default _ _ (by rw [readBytes_length]; exact Nat.not_lt.1 outside)
  have spelled : s.spriteBit vx vy n r c = (decide (rowOffset vy r < n.toNat) && decide (colOffset vx c < 8) &&
      (s.readByte (s.idx.toNat + rowOffset vy r)).getLsbD (7 - colOffset vx c)) := rfl
  rw [spelled, rowsBit, Nat.sub_zero, byte]
  by_cases inside : rowOffset vy r < n.toNat <;> simp [inside]

/-- The sprite depends on the state through I and the bytes of memory alone. -/
theorem spriteBit_congr {s t : State} (same_idx : t.idx = s.idx) (same_mem : SameMemory s t) (vx vy : Byte)
    (n : Nibble) : t.spriteBit vx vy n = s.spriteBit vx vy n := by
  funext r c
  simp only [State.spriteBit, same_idx, same_mem _]

/-! ### The loops -/

/-- `drawRow_spec` in terms of the set of bits drawn. -/
theorem drawRow_xorsBits (vx vy : Byte) (row : Nat) (b : Byte) (p : Screen × Bool) (hrow : row < 32) :
    XorsBits (rowBit vx vy row b) p (drawRow vx vy row b p) := by
  obtain ⟨pixels, collision⟩ := drawRow_spec vx vy row b p
  constructor
  · simpa only [rowBit, rowOffset_eq_iff vy _ row hrow] using pixels
  · simp [collision, rowBit, rowOffset_eq_iff vy _ row hrow, and_assoc]

theorem drawRows_xorsBits (vx vy : Byte) (row : Nat) (bs : List Byte) (p : Screen × Bool)
    (hrows : row + bs.length ≤ 32) : XorsBits (rowsBit vx vy row bs) p (drawRows vx vy row bs p) := by
  induction bs generalizing row p with
  | nil =>
    rw [rowsBit_nil]
    exact xorsBits_none p
  | cons b bs ih =>
    rw [List.length_cons] at hrows
    have head := drawRow_xorsBits vx vy row b p (by omega)
    have tail := ih (row + 1) (drawRow vx vy row b p) (by omega)
    rw [rowsBit_cons]
    exact head.trans tail fun _ _ => rowBit_eq_false_of_rowsBit_succ

/-- A DRW whose sprite is in memory: it draws the sprite's bits, writes the collision to VF and ends by default. -/
theorem exec_drw_of_inMemory (x y n : Nibble) (s : State) (h : inMemory s.idx.toNat n.toNat = true) :
    ∃ q, XorsBits (s.spriteBit (s.reg x) (s.reg y) n) (s.fb, false) q ∧
      exec (.drw x y n) s = .next ((s.setScreen q.1).setFlag q.2).next := by
  have rows : 0 + (s.readBytes s.idx.toNat n.toNat).length ≤ 32 := by
    have := n.isLt
    rw [readBytes_length]
    omega
  refine ⟨_, rowsBit_readBytes s (s.reg x) (s.reg y) n ▸ drawRows_xorsBits _ _ 0 _ (s.fb, false) rows, ?_⟩
  simp only [exec, execDrw, h, if_true]

/-! ### DRW once and twice -/

/-- Settles O29: the loops XOR the sprite's bits onto the screen, and a write of VF leaves the rest as it was. -/
theorem drwXorsTheSprite : Obligations.DrwXorsTheSprite := by
  intro x y n s in_range
  have in_memory : inMemory s.idx.toNat n.toNat = true := (inMemory_iff _ _).2 (by omega)
  obtain ⟨q, ⟨pixels, collision⟩, runs⟩ := exec_drw_of_inMemory x y n s in_memory
  obtain ⟨regs, idx, mem, stack, timers, -, latches, host⟩ :=
    onlyRegs_setReg (s.setScreen q.1) 0xF#4 (if q.2 then 1#8 else 0#8) (s.pc + 2#16)
  have flag : ((s.setScreen q.1).setFlag q.2).next.reg 0xF#4 = if q.2 then 1#8 else 0#8 := by
    rw [next_eq_goto, goto_reg, reg_setFlag, if_pos rfl]
  refine ⟨_, runs, pixels, fun hit => ?hit, fun miss => ?miss, rfl, advanced_next rfl, regs, idx, mem, stack, timers,
    latches, host⟩
  case hit => rw [flag, collision.2 (.inr hit), if_pos rfl]
  case miss =>
    have no_collision : ¬ q.2 = true := by
      rw [collision]
      rintro (before | ⟨r, c, bit, lit⟩)
      · cases before
      · rw [miss r c bit] at lit
        cases lit
    rw [flag, if_neg no_collision]

/-- Settles O30: the first DRW leaves I, memory and the two coordinates alone, so the second draws the same bits; XORed
twice they cancel, and the second finds a pixel set under a bit 1 where the first found it clear. -/
theorem drwTwiceRestoresTheScreen : Obligations.DrwTwiceRestoresTheScreen := by
  intro x y n s hx hy in_range
  obtain ⟨t, runs, pixels, -, -, -, -, regs, idx, mem, -⟩ := drwXorsTheSprite x y n s in_range
  obtain ⟨t', runs', pixels', hit, miss, -⟩ := drwXorsTheSprite x y n t (by rwa [idx])
  have same_bits : t.spriteBit (t.reg x) (t.reg y) n = s.spriteBit (s.reg x) (s.reg y) n := by
    rw [spriteBit_congr idx mem, regs x (by simpa using hx), regs y (by simpa using hy)]
  rw [same_bits] at pixels' hit miss
  refine ⟨t, t', runs, runs', screen_ext _ _ fun r c => ?restored, fun flag => ?clear, ?set⟩
  case restored => rw [pixels', pixels, Bool.xor_assoc, Bool.xor_self, Bool.xor_false]
  case clear =>
    by_contra none_clear
    have flag_zero : t'.reg 0xF#4 = 0#8 := miss fun r c bit => by
      have lit : s.fb.pixel r c = true := by
        rw [← Bool.not_eq_false]
        exact fun clear => none_clear ⟨r, c, bit, clear⟩
      rw [pixels, bit, lit, Bool.xor_self]
    rw [flag] at flag_zero
    cases flag_zero
  case set =>
    rintro ⟨r, c, bit, clear⟩
    exact hit ⟨r, c, bit, by rw [pixels, bit, clear, Bool.false_xor]⟩

end Sys2Proof.Machine

/-! PROOFS. The Misc family 0xF: the timer moves, LD_BCD, STORE and LOAD (spec/48_misc_f.md R240, R242, R243, R246 to
R249). Its words differ in the low byte. The three instructions that access memory make one bounds test first, and
LD_BCD and STORE are then the same write of bytes at I. -/

namespace Sys2Proof.Machine

/-! ### The words -/

theorem decodeWord_of_familyF {w : Word} (hf : family w = 0xF#4) : decodeWord w = decodeFamilyF w := by
  simp only [decodeWord, hf]
  rfl

/-- `encodedAs_of_row` for an instruction that the low byte picks out of family 0xF. -/
theorem encodedAs_of_familyF (nn : Byte) {mk : Word → Instr}
    (hrow : ∀ w, encode (mk w) &&& 0xF0FF#16 = wordXNN 0xF#4 0x0#4 nn)
    (hdec : ∀ w, fieldNN w = nn → decodeFamilyF w = .ok (mk w)) :
    EncodedAs 0xF0FF#16 (wordXNN 0xF#4 0x0#4 nn) mk := by
  refine encodedAs_of_row hrow fun w hw => ?_
  obtain ⟨hf, hnn⟩ := (Laws.mask_family_nn_eq_iff w 0xF#4 nn).1 hw
  rw [decodeWord_of_familyF hf, hdec w hnn]

theorem encodedAs_ldDt : EncodedAs 0xF0FF#16 0xF007#16 (fun w => .ldDt (fieldX w)) :=
  encodedAs_of_familyF 0x07#8 (fun w => Laws.MaskMatch.ldDt (fieldX w)) fun w hnn => by simp [decodeFamilyF, hnn]

theorem encodedAs_setDt : EncodedAs 0xF0FF#16 0xF015#16 (fun w => .setDt (fieldX w)) :=
  encodedAs_of_familyF 0x15#8 (fun w => Laws.MaskMatch.setDt (fieldX w)) fun w hnn => by simp [decodeFamilyF, hnn]

theorem encodedAs_setSt : EncodedAs 0xF0FF#16 0xF018#16 (fun w => .setSt (fieldX w)) :=
  encodedAs_of_familyF 0x18#8 (fun w => Laws.MaskMatch.setSt (fieldX w)) fun w hnn => by simp [decodeFamilyF, hnn]

theorem encodedAs_ldBcd : EncodedAs 0xF0FF#16 0xF033#16 (fun w => .ldBcd (fieldX w)) :=
  encodedAs_of_familyF 0x33#8 (fun w => Laws.MaskMatch.ldBcd (fieldX w)) fun w hnn => by simp [decodeFamilyF, hnn]

theorem encodedAs_store : EncodedAs 0xF0FF#16 0xF055#16 (fun w => .store (fieldX w)) :=
  encodedAs_of_familyF 0x55#8 (fun w => Laws.MaskMatch.store (fieldX w)) fun w hnn => by simp [decodeFamilyF, hnn]

theorem encodedAs_load : EncodedAs 0xF0FF#16 0xF065#16 (fun w => .load (fieldX w)) :=
  encodedAs_of_familyF 0x65#8 (fun w => Laws.MaskMatch.load (fieldX w)) fun w hnn => by simp [decodeFamilyF, hnn]

/-! ### The timer moves -/

theorem exec_ldDt (x : Nibble) (s : State) : exec (.ldDt x) s = .next (s.setReg x s.dt).next := rfl

theorem exec_setDt (x : Nibble) (s : State) : exec (.setDt x) s = .next (s.setDelay (s.reg x)).next := rfl

theorem exec_setSt (x : Nibble) (s : State) : exec (.setSt x) s = .next (s.setSound (s.reg x)).next := rfl

/-- Settles O33: LD_DT is a register write; the other two write their timer, and the default end keeps the rest as the
new timer found it. -/
theorem timerMoves : Obligations.TimerMoves := by
  refine ⟨encodedAs_ldDt, encodedAs_setDt, encodedAs_setSt, fun x s => ⟨?ldDt, ?setDt, ?setSt⟩⟩
  case ldDt => exact exec_writes_reg (exec_ldDt x s)
  case setDt => exact ⟨_, exec_setDt x s, rfl, rfl, advanced_next rfl, onlyRegs_goto (s.setDelay (s.reg x)) _⟩
  case setSt => exact ⟨_, exec_setSt x s, rfl, rfl, advanced_next rfl, onlyRegs_goto (s.setSound (s.reg x)) _⟩

/-! ### The bounds test -/

/-- An access of at least one byte is in memory exactly when its last byte is (R69). -/
theorem inMemory_succ_iff (a n : Nat) : inMemory a (n + 1) = true ↔ a + n ≤ 4095 := by
  rw [inMemory_iff]
  omega

theorem not_inMemory_succ {a n : Nat} (h : a + n > 4095) : ¬ inMemory a (n + 1) = true := by
  rw [inMemory_succ_iff]
  exact Nat.not_le.2 h

/-! ### Writing bytes at I: LD_BCD and STORE -/

/-- What an instruction does that writes bytes at I and ends by default (R25, R65). -/
theorem exec_writes_bytes {i : Instr} {s : State} {bs : List Byte}
    (hexec : exec i s = .next (s.writeBytes s.idx.toNat bs).next) :
    ∃ t, exec i s = .next t ∧ (∀ k (hk : k < bs.length), t.readByte (s.idx.toNat + k) = bs[k]) ∧
      (∀ a, a < s.idx.toNat ∨ s.idx.toNat + bs.length ≤ a → t.readByte a = s.readByte a) ∧ Advanced s t ∧
      SameRegsBut [] s t ∧ t.idx = s.idx ∧ SameStack s t ∧ SameTimers s t ∧ SameScreen s t ∧ SameLatches s t ∧
      SameHost s t := by
  obtain ⟨regs, idx, -, stack, timers, screen, latches, host⟩ :=
    onlyRegs_goto (s.writeBytes s.idx.toNat bs) (s.pc + 2#16)
  refine ⟨_, hexec, fun k hk => ?written, fun a outside => ?kept, advanced_next rfl, regs, idx, stack, timers, screen,
    latches, host⟩
  case written =>
    have inside : s.idx.toNat ≤ s.idx.toNat + k ∧ s.idx.toNat + k < s.idx.toNat + bs.length := by omega
    rw [next_eq_goto, goto_readByte, readByte_writeBytes, dif_pos inside]
    simp only [Nat.add_sub_cancel_left]
  case kept => rw [next_eq_goto, goto_readByte, readByte_writeBytes, dif_neg (by omega)]

/-- Settles O8: the quotients and remainders fit in a byte, and make up the number in base ten. -/
theorem bcdGivesTheDecimalDigits : Obligations.BcdGivesTheDecimalDigits := by
  intro v
  have := v.isLt
  refine ⟨_, _, _, rfl, ?_⟩
  simp only [BitVec.toNat_ofNat]
  omega

theorem exec_ldBcd_of_inMemory (x : Nibble) (s : State) (h : s.idx.toNat + 2 ≤ 4095) :
    exec (.ldBcd x) s = .next (s.writeBytes s.idx.toNat (bcd (s.reg x))).next :=
  if_pos ((inMemory_succ_iff _ _).2 h)

theorem exec_ldBcd_of_outside (x : Nibble) (s : State) (h : s.idx.toNat + 2 > 4095) :
    exec (.ldBcd x) s = .next (s.takeDataOob (.ldBcd x)) :=
  if_neg (not_inMemory_succ h)

/-- Settles O34: the bytes written are the digits of V[x], by the law of the BCD converter. -/
theorem ldBcdStoresThreeDigits : Obligations.LdBcdStoresThreeDigits := by
  refine ⟨encodedAs_ldBcd, fun x s inside => ?digits,
    fun x s outside => ⟨_, exec_ldBcd_of_outside x s outside, tookFatal_takeDataOob s _⟩⟩
  case digits =>
    obtain ⟨hundreds, tens, ones, converted, sum, bounds⟩ := bcdGivesTheDecimalDigits (s.reg x)
    have runs := exec_ldBcd_of_inMemory x s inside
    rw [converted] at runs
    obtain ⟨t, runs, written, kept, frame⟩ := exec_writes_bytes runs
    have first : t.readByte s.idx.toNat = hundreds := written 0 (by simp)
    have second : t.readByte (s.idx.toNat + 1) = tens := written 1 (by simp)
    have third : t.readByte (s.idx.toNat + 2) = ones := written 2 (by simp)
    rw [← first, ← second, ← third] at sum bounds
    obtain ⟨hundreds_le, tens_le, ones_le⟩ := bounds
    exact ⟨t, runs, sum, hundreds_le, tens_le, ones_le, kept, frame⟩

theorem exec_store_of_inMemory (x : Nibble) (s : State) (h : s.idx.toNat + x.toNat ≤ 4095) :
    exec (.store x) s = .next (s.writeBytes s.idx.toNat (s.regsUpTo x)).next :=
  if_pos ((inMemory_succ_iff _ _).2 h)

theorem exec_store_of_outside (x : Nibble) (s : State) (h : s.idx.toNat + x.toNat > 4095) :
    exec (.store x) s = .next (s.takeDataOob (.store x)) :=
  if_neg (not_inMemory_succ h)

/-- Settles O35: the k-th of the bytes written is V[k]. -/
theorem storeWritesRegisters : Obligations.StoreWritesRegisters := by
  refine ⟨encodedAs_store, fun x s inside => ?stored,
    fun x s outside => ⟨_, exec_store_of_outside x s outside, tookFatal_takeDataOob s _⟩⟩
  case stored =>
    obtain ⟨t, runs, written, kept, frame⟩ := exec_writes_bytes (exec_store_of_inMemory x s inside)
    rw [regsUpTo_length] at kept
    refine ⟨t, runs, fun k hk => ?register, kept, frame⟩
    have in_list : k.toNat < (s.regsUpTo x).length := by
      rw [regsUpTo_length]
      omega
    rw [written k.toNat in_list, getElem_regsUpTo, BitVec.ofNat_toNat, BitVec.setWidth_eq]

/-! ### Reading bytes at I: LOAD -/

theorem mem_upTo (x r : Nibble) : r ∈ upTo x ↔ r.toNat ≤ x.toNat := by
  rw [upTo, List.mem_map]
  constructor
  · rintro ⟨n, hn, rfl⟩
    rw [List.mem_range] at hn
    rw [BitVec.toNat_ofNat]
    omega
  · intro h
    exact ⟨r.toNat, List.mem_range.2 (Nat.lt_succ_of_le h), by simp⟩

/-- A load of registers leaves the registers above the bytes loaded, and everything else, as they were (R248). -/
theorem onlyRegs_loadRegs (s : State) (x : Nibble) (bs : List Byte) (h : bs.length = x.toNat + 1) :
    OnlyRegs (upTo x) s (s.loadRegs bs).next := by
  have regs : SameRegsBut (upTo x) s (s.loadRegs bs).next := by
    intro r hr
    rw [mem_upTo] at hr
    rw [next_eq_goto, goto_reg, reg_loadRegs, List.getD_eq_default _ _ (by omega)]
  refine ⟨regs, ?_⟩
  simp [SameMemory, SameStack, SameTimers, SameScreen, SameLatches, SameHost]

theorem exec_load_of_inMemory (x : Nibble) (s : State) (h : s.idx.toNat + x.toNat ≤ 4095) :
    exec (.load x) s = .next (s.loadRegs (s.readBytes s.idx.toNat (x.toNat + 1))).next :=
  if_pos ((inMemory_succ_iff _ _).2 h)

theorem exec_load_of_outside (x : Nibble) (s : State) (h : s.idx.toNat + x.toNat > 4095) :
    exec (.load x) s = .next (s.takeDataOob (.load x)) :=
  if_neg (not_inMemory_succ h)

/-- Settles O36: V[k] is the k-th of the bytes read, and there is none for a register above V[x]. -/
theorem loadReadsRegisters : Obligations.LoadReadsRegisters := by
  refine ⟨encodedAs_load, fun x s inside => ?loaded,
    fun x s outside => ⟨_, exec_load_of_outside x s outside, tookFatal_takeDataOob s _⟩⟩
  case loaded =>
    obtain ⟨regs, rest⟩ := onlyRegs_loadRegs s x _ (readBytes_length s s.idx.toNat (x.toNat + 1))
    have above (k : Nibble) (hk : x.toNat < k.toNat) : k ∉ upTo x := by
      rw [mem_upTo]
      exact Nat.not_le.2 hk
    refine ⟨_, exec_load_of_inMemory x s inside, fun k hk => ?register, fun k hk => regs k (above k hk),
      advanced_next (loadRegs_pc s _), regs, rest⟩
    have in_list : k.toNat < (s.readBytes s.idx.toNat (x.toNat + 1)).length := by
      rw [readBytes_length]
      omega
    rw [next_eq_goto, goto_reg, reg_loadRegs, List.getD_eq_getElem _ _ in_list, getElem_readBytes]

end Sys2Proof.Machine

/-! PROOFS. The keypad, the draw flag and the framebuffer read as the host's operations reach them
(spec/49_host_operations.md, R276 to R278). -/

namespace Sys2Proof.Machine

/-- The read-after-write law of the keypad, for the key written and every other key (R276). -/
theorem getElem_keyWrite_key (s : State) (k : Nibble) (down : Bool) (j : Fin 16) :
    (s.keyWrite k down).key[j] = if j.val = k.toNat then down else s.key[j] := by
  simp only [keyWrite_key, Fin.getElem_fin, Vector.getElem_set, eq_comm]

/-- Settles O48: a key write replaces the keypad and an acknowledge the draw flag, so putting the old value back gives the
old state; the framebuffer read is the identity. -/
theorem hostWritesOneKeyOrTheFlag : Obligations.HostWritesOneKeyOrTheFlag := by
  intro s
  refine ⟨fun k down => ?keyWrite, ?frameAck, ?frameRead⟩
  case keyWrite => exact ⟨s.keyWrite k down, rfl, getElem_keyWrite_key s k down, rfl⟩
  case frameAck => exact ⟨s.frameAck, rfl, frameAck_drawPending s, rfl⟩
  case frameRead => rfl

end Sys2Proof.Machine


/-! PROOFS. The decoder, the encoder and the opcode table (spec/30_encoding.md R90 to R102). Each row of the table reads
exactly its own words as its instructions (`EncodedAs`); that the word of an instruction decodes to it, and that the
decoder and the table agree, are then read off the row of the instruction. -/

namespace Sys2Proof.Machine

/-! ### The rows that no statement of their family names -/

theorem encodedAs_shr : EncodedAs 0xF00F#16 0x8006#16 (fun w => .shr (fieldX w) (fieldY w)) :=
  encodedAs_of_family8 0x6#4 (fun w => Laws.MaskMatch.shr (fieldX w) (fieldY w)) fun w hn => by
    simp only [decodeFamily8, hn]

theorem encodedAs_shl : EncodedAs 0xF00F#16 0x800E#16 (fun w => .shl (fieldX w) (fieldY w)) :=
  encodedAs_of_family8 0xE#4 (fun w => Laws.MaskMatch.shl (fieldX w) (fieldY w)) fun w hn => by
    simp only [decodeFamily8, hn]

theorem encodedAs_ldI : EncodedAs 0xF000#16 0xA000#16 (fun w => .ldI (fieldNNN w)) :=
  encodedAs_of_family 0xA#4 (fun w => Laws.MaskMatch.ldI (fieldNNN w)) fun w hf => by simp only [decodeWord, hf]

theorem encodedAs_rnd : EncodedAs 0xF000#16 0xC000#16 (fun w => .rnd (fieldX w) (fieldNN w)) :=
  encodedAs_of_family 0xC#4 (fun w => Laws.MaskMatch.rnd (fieldX w) (fieldNN w)) fun w hf => by
    simp only [decodeWord, hf]

theorem encodedAs_drw : EncodedAs 0xF000#16 0xD000#16 (fun w => .drw (fieldX w) (fieldY w) (fieldN w)) :=
  encodedAs_of_family 0xD#4 (fun w => Laws.MaskMatch.drw (fieldX w) (fieldY w) (fieldN w)) fun w hf => by
    simp only [decodeWord, hf]

theorem decodeWord_of_familyE {w : Word} (hf : family w = 0xE#4) : decodeWord w = decodeFamilyE w := by
  simp only [decodeWord, hf]

/-- `encodedAs_of_row` for an instruction that the low byte picks out of family 0xE. -/
theorem encodedAs_of_familyE (nn : Byte) {mk : Word → Instr}
    (hrow : ∀ w, encode (mk w) &&& 0xF0FF#16 = wordXNN 0xE#4 0x0#4 nn)
    (hdec : ∀ w, fieldNN w = nn → decodeFamilyE w = .ok (mk w)) :
    EncodedAs 0xF0FF#16 (wordXNN 0xE#4 0x0#4 nn) mk := by
  refine encodedAs_of_row hrow fun w hw => ?_
  obtain ⟨hf, hnn⟩ := (Laws.mask_family_nn_eq_iff w 0xE#4 nn).1 hw
  rw [decodeWord_of_familyE hf, hdec w hnn]

theorem encodedAs_skp : EncodedAs 0xF0FF#16 0xE09E#16 (fun w => .skp (fieldX w)) :=
  encodedAs_of_familyE 0x9E#8 (fun w => Laws.MaskMatch.skp (fieldX w)) fun w hnn => by simp [decodeFamilyE, hnn]

theorem encodedAs_sknp : EncodedAs 0xF0FF#16 0xE0A1#16 (fun w => .sknp (fieldX w)) :=
  encodedAs_of_familyE 0xA1#8 (fun w => Laws.MaskMatch.sknp (fieldX w)) fun w hnn => by simp [decodeFamilyE, hnn]

theorem encodedAs_ldKey : EncodedAs 0xF0FF#16 0xF00A#16 (fun w => .ldKey (fieldX w)) :=
  encodedAs_of_familyF 0x0A#8 (fun w => Laws.MaskMatch.ldKey (fieldX w)) fun w hnn => by simp [decodeFamilyF, hnn]

theorem encodedAs_addI : EncodedAs 0xF0FF#16 0xF01E#16 (fun w => .addI (fieldX w)) :=
  encodedAs_of_familyF 0x1E#8 (fun w => Laws.MaskMatch.addI (fieldX w)) fun w hnn => by simp [decodeFamilyF, hnn]

theorem encodedAs_ldFont : EncodedAs 0xF0FF#16 0xF029#16 (fun w => .ldFont (fieldX w)) :=
  encodedAs_of_familyF 0x29#8 (fun w => Laws.MaskMatch.ldFont (fieldX w)) fun w hnn => by simp [decodeFamilyF, hnn]

/-! ### The row of an instruction -/

/-- The row of an instruction, read as a row: `mk` reads the operands off a word, gives the instruction back from its
own word, which is of the row, and never leaves the row. -/
structure ReadsRow (i : Instr) (mk : Word → Instr) : Prop where
  encodedAs : EncodedAs i.row.1 i.row.2 mk
  matchesRow : encode i &&& i.row.1 = i.row.2
  readsBack : mk (encode i) = i
  sameRow : ∀ w, (mk w).row = i.row

/-- Every instruction's row of the table is read so (R96). -/
theorem exists_readsRow (i : Instr) : ∃ mk, ReadsRow i mk := by
  cases i with
  | cls u =>
    exact ⟨_, encodedAs_cls, Laws.MaskMatch.cls u, by simp [encode], fun _ => rfl⟩
  | ret u =>
    exact ⟨_, encodedAs_ret, Laws.MaskMatch.ret u, by simp [encode], fun _ => rfl⟩
  | jp nnn =>
    exact ⟨_, encodedAs_jp, Laws.MaskMatch.jp nnn, by simp [encode], fun _ => rfl⟩
  | call nnn =>
    exact ⟨_, encodedAs_call, Laws.MaskMatch.call nnn, by simp [encode], fun _ => rfl⟩
  | seImm x nn =>
    exact ⟨_, encodedAs_seImm, Laws.MaskMatch.seImm x nn, by simp [encode], fun _ => rfl⟩
  | sneImm x nn =>
    exact ⟨_, encodedAs_sneImm, Laws.MaskMatch.sneImm x nn, by simp [encode], fun _ => rfl⟩
  | seReg x y u =>
    exact ⟨_, encodedAs_seReg, Laws.MaskMatch.seReg x y u, by simp [encode], fun _ => rfl⟩
  | ldImm x nn =>
    exact ⟨_, encodedAs_ldImm, Laws.MaskMatch.ldImm x nn, by simp [encode], fun _ => rfl⟩
  | addImm x nn =>
    exact ⟨_, encodedAs_addImm, Laws.MaskMatch.addImm x nn, by simp [encode], fun _ => rfl⟩
  | ldReg x y =>
    exact ⟨_, encodedAs_ldReg, Laws.MaskMatch.ldReg x y, by simp [encode], fun _ => rfl⟩
  | or x y =>
    exact ⟨_, encodedAs_or, Laws.MaskMatch.or x y, by simp [encode], fun _ => rfl⟩
  | and x y =>
    exact ⟨_, encodedAs_and, Laws.MaskMatch.and x y, by simp [encode], fun _ => rfl⟩
  | xor x y =>
    exact ⟨_, encodedAs_xor, Laws.MaskMatch.xor x y, by simp [encode], fun _ => rfl⟩
  | addVxVy x y =>
    exact ⟨_, encodedAs_addVxVy, Laws.MaskMatch.addVxVy x y, by simp [encode], fun _ => rfl⟩
  | subVxVy x y =>
    exact ⟨_, encodedAs_subVxVy, Laws.MaskMatch.subVxVy x y, by simp [encode], fun _ => rfl⟩
  | shr x y =>
    exact ⟨_, encodedAs_shr, Laws.MaskMatch.shr x y, by simp [encode], fun _ => rfl⟩
  | subn x y =>
    exact ⟨_, encodedAs_subn, Laws.MaskMatch.subn x y, by simp [encode], fun _ => rfl⟩
  | shl x y =>
    exact ⟨_, encodedAs_shl, Laws.MaskMatch.shl x y, by simp [encode], fun _ => rfl⟩
  | sneReg x y u =>
    exact ⟨_, encodedAs_sneReg, Laws.MaskMatch.sneReg x y u, by simp [encode], fun _ => rfl⟩
  | ldI nnn =>
    exact ⟨_, encodedAs_ldI, Laws.MaskMatch.ldI nnn, by simp [encode], fun _ => rfl⟩
  | jpV0 nnn =>
    exact ⟨_, encodedAs_jpV0, Laws.MaskMatch.jpV0 nnn, by simp [encode], fun _ => rfl⟩
  | rnd x nn =>
    exact ⟨_, encodedAs_rnd, Laws.MaskMatch.rnd x nn, by simp [encode], fun _ => rfl⟩
  | drw x y n =>
    exact ⟨_, encodedAs_drw, Laws.MaskMatch.drw x y n, by simp [encode], fun _ => rfl⟩
  | skp x =>
    exact ⟨_, encodedAs_skp, Laws.MaskMatch.skp x, by simp [encode], fun _ => rfl⟩
  | sknp x =>
    exact ⟨_, encodedAs_sknp, Laws.MaskMatch.sknp x, by simp [encode], fun _ => rfl⟩
  | ldDt x =>
    exact ⟨_, encodedAs_ldDt, Laws.MaskMatch.ldDt x, by simp [encode], fun _ => rfl⟩
  | ldKey x =>
    exact ⟨_, encodedAs_ldKey, Laws.MaskMatch.ldKey x, by simp [encode], fun _ => rfl⟩
  | setDt x =>
    exact ⟨_, encodedAs_setDt, Laws.MaskMatch.setDt x, by simp [encode], fun _ => rfl⟩
  | setSt x =>
    exact ⟨_, encodedAs_setSt, Laws.MaskMatch.setSt x, by simp [encode], fun _ => rfl⟩
  | addI x =>
    exact ⟨_, encodedAs_addI, Laws.MaskMatch.addI x, by simp [encode], fun _ => rfl⟩
  | ldFont x =>
    exact ⟨_, encodedAs_ldFont, Laws.MaskMatch.ldFont x, by simp [encode], fun _ => rfl⟩
  | ldBcd x =>
    exact ⟨_, encodedAs_ldBcd, Laws.MaskMatch.ldBcd x, by simp [encode], fun _ => rfl⟩
  | store x =>
    exact ⟨_, encodedAs_store, Laws.MaskMatch.store x, by simp [encode], fun _ => rfl⟩
  | load x =>
    exact ⟨_, encodedAs_load, Laws.MaskMatch.load x, by simp [encode], fun _ => rfl⟩

/-- Settles O1: the word of an instruction is of the instruction's row, which reads it back. -/
theorem decodeOfEncodeIsTheInstruction : Obligations.DecodeOfEncodeIsTheInstruction := by
  intro i
  obtain ⟨mk, encodedAs, matchesRow, readsBack, -⟩ := exists_readsRow i
  have decoded : decodeWord (encode i) = .ok (mk (encode i)) := (encodedAs _).1 matchesRow
  rw [decoded, readsBack]

/-- Settles O2, by the decoder read backwards. -/
theorem encodeOfDecodeIsTheWord : Obligations.EncodeOfDecodeIsTheWord :=
  fun _ _ decoded => Laws.encode_of_decodeWord decoded

/-- Settles O3: a word that decodes to an instruction is that instruction's word, so of its row; a word of a row decodes
to what the row reads off it, which is of the same row. -/
theorem decoderAgreesWithTheTable : Obligations.DecoderAgreesWithTheTable := by
  refine ⟨fun w i decoded => ?ofRow, fun w j matchesRow => ?decodes⟩
  case ofRow =>
    obtain ⟨_, -, matchesRow, -⟩ := exists_readsRow i
    rwa [Laws.encode_of_decodeWord decoded] at matchesRow
  case decodes =>
    obtain ⟨mk, encodedAs, -, -, sameRow⟩ := exists_readsRow j
    exact ⟨mk w, (encodedAs w).1 matchesRow, sameRow w⟩

/-! ### The unrecognised words -/

theorem decodeFamily0_error_iff (w : Word) :
    (∃ r, decodeFamily0 w = .error r) ↔ fieldNN w ∉ [0xE0#8, 0xEE#8] := by
  unfold decodeFamily0
  split_ifs <;> simp [*]

theorem decodeFamily8_error_iff (w : Word) : (∃ r, decodeFamily8 w = .error r) ↔
    fieldN w ∉ [0x0#4, 0x1#4, 0x2#4, 0x3#4, 0x4#4, 0x5#4, 0x6#4, 0x7#4, 0xE#4] := by
  unfold decodeFamily8
  split <;> simp_all

theorem decodeFamilyE_error_iff (w : Word) :
    (∃ r, decodeFamilyE w = .error r) ↔ fieldNN w ∉ [0x9E#8, 0xA1#8] := by
  unfold decodeFamilyE
  split_ifs <;> simp [*]

theorem decodeFamilyF_error_iff (w : Word) : (∃ r, decodeFamilyF w = .error r) ↔
    fieldNN w ∉ [0x07#8, 0x0A#8, 0x15#8, 0x18#8, 0x1E#8, 0x29#8, 0x33#8, 0x55#8, 0x65#8] := by
  unfold decodeFamilyF
  split_ifs <;> simp [*]

/-- A family other than 0, 8, E and F has no unrecognised word (R102). -/
theorem decodeWord_of_other_family {w : Word} (h0 : family w ≠ 0x0#4) (h8 : family w ≠ 0x8#4)
    (hE : family w ≠ 0xE#4) (hF : family w ≠ 0xF#4) : ∃ i, decodeWord w = .ok i := by
  unfold decodeWord
  split
  case h_1 | h_9 | h_15 => contradiction
  case h_16 =>
    simp only [imp_false] at *
    bv_omega
  all_goals exact ⟨_, rfl⟩

/-- Settles O4: in each of the four families with a second level the unrecognised words are that level's; the other
families have none. -/
theorem unrecognisedWordsAreThose : Obligations.UnrecognisedWordsAreThose := by
  intro w
  by_cases h0 : family w = 0x0#4
  · rw [decodeWord_of_family0 h0, decodeFamily0_error_iff]
    simp [h0]
  by_cases h8 : family w = 0x8#4
  · rw [decodeWord_of_family8 h8, decodeFamily8_error_iff]
    simp [h8]
  by_cases hE : family w = 0xE#4
  · rw [decodeWord_of_familyE hE, decodeFamilyE_error_iff]
    simp [hE]
  by_cases hF : family w = 0xF#4
  · rw [decodeWord_of_familyF hF, decodeFamilyF_error_iff]
    simp [hF]
  · obtain ⟨i, decoded⟩ := decodeWord_of_other_family h0 h8 hE hF
    simp [decoded, h0, h8, hE, hF]

/-- Settles O5: the decoder evaluated on each word. -/
theorem wordsOfEveryFamilyDecode : Obligations.WordsOfEveryFamilyDecode := by
  unfold Obligations.WordsOfEveryFamilyDecode
  decide

end Sys2Proof.Machine

/-! PROOFS. What an instruction can do, said once (spec/40_cycle.md R123 to R128, spec/60_exceptions.md R308): it takes
the fatal condition of its row, or waits, or completes, and then it has written one part of the state and jumped. The
rules about all instructions (R22, R31 to R38, R61, R128) are read off the parts. -/

namespace Sys2Proof.Machine

/-! ### The parts of the state an instruction writes -/

/-- What the instruction has written when it completes, before pc and the status. A constructor names the instruction
where a rule about all instructions singles it out. -/
inductive Wrote (s : State) : Instr → State → Prop
  | nothing (i : Instr) : Wrote s i s
  | regs {i : Instr} {v : Vector Byte 16} (kept : SameRegsBut i.writes s { s with v := v }) :
      Wrote s i { s with v := v }
  | random (x : Nibble) (nn b : Byte) : Wrote s (.rnd x nn) (s.drawRandom.2.setReg x b)
  | index (i : Instr) (w : Word) : Wrote s i (s.setIdx w)
  | delay (x : Nibble) (b : Byte) : Wrote s (.setDt x) (s.setDelay b)
  | sound (x : Nibble) (b : Byte) : Wrote s (.setSt x) (s.setSound b)
  | pushed (nnn : Addr12) (room : s.sp.val < 16) :
      Wrote s (.call nnn)
        { s with stack := s.stack.set s.sp.val (s.pc + 2#16) room, sp := ⟨s.sp.val + 1, by omega⟩ }
  | popped (u : Nibble) (used : 0 < s.sp.val) : Wrote s (.ret u) { s with sp := ⟨s.sp.val - 1, by omega⟩ }
  | bytes {i : Instr} {bs : List Byte} (writer : (∃ x, i = .ldBcd x) ∨ ∃ x, i = .store x) (short : bs.length ≤ 16)
      (inside : s.idx.toNat + bs.length ≤ Config.memSize) : Wrote s i (s.writeBytes s.idx.toNat bs)
  | cleared (u : Nibble) : Wrote s (.cls u) (s.setScreen blankScreen)
  | drawn (x y n : Nibble) (fb : Screen) (flag : Bool) : Wrote s (.drw x y n) ((s.setScreen fb).setFlag flag)

/-- Where a completed instruction leaves pc (R25, R126, R141, R150, R151, R201). -/
inductive GoesTo (s : State) : Word → Prop
  | past (skips : Bool) : GoesTo s (s.pc + if skips then 4#16 else 2#16)
  | jump (nnn : Addr12) : GoesTo s (target nnn)
  | offset (nnn : Addr12) (b : Byte) : GoesTo s (target nnn + addend b)
  | back (used : 0 < s.sp.val) : GoesTo s (s.stack[s.sp.val - 1]'(by omega))

/-- The ways an instruction ends. -/
inductive Ends (s : State) : Instr → State → Prop
  | fatal {i : Instr} {c : Cause} (raised : i.raises s = some c) :
      Ends s i (s.takeFatal c (encode i) (if c = .dataOob then max s.idx.toNat 4096 else 0))
  | waiting (x : Nibble) : Ends s (.ldKey x) s.wait
  | completed {i : Instr} {u : State} {w : Word} (fine : i.raises s = none) (wrote : Wrote s i u)
      (goes : GoesTo s w) : Ends s i (u.goto w)

namespace Wrote

variable {s u : State} {i : Instr}

theorem reg {x : Nibble} (b : Byte) (hx : x ∈ i.writes) : Wrote s i (s.setReg x b) := by
  refine regs fun r hr => ?_
  have other : r ≠ x := fun same => hr (same ▸ hx)
  exact (reg_setReg s x r b).trans (if_neg other)

theorem flagged {x : Nibble} (f : Flagged) (hx : x ∈ i.writes) (hF : 0xF#4 ∈ i.writes) :
    Wrote s i (s.setFlagged x f) := by
  refine regs fun r hr => ?_
  have not_result : r ≠ x := fun same => hr (same ▸ hx)
  have not_flag : r ≠ 0xF#4 := fun same => hr (same ▸ hF)
  exact (reg_setFlagged s x r f).trans (by rw [if_neg not_flag, if_neg not_result])

end Wrote

/-! ### The outcomes of exec that no part of one family states -/

theorem exec_shr (x y : Nibble) (s : State) :
    exec (.shr x y) s = .next (s.setFlagged x (shrFlagged (s.reg x))).next := rfl

theorem exec_shl (x y : Nibble) (s : State) :
    exec (.shl x y) s = .next (s.setFlagged x (shlFlagged (s.reg x))).next := rfl

theorem exec_ldI (nnn : Addr12) (s : State) : exec (.ldI nnn) s = .next (s.setIdx (target nnn)).next := rfl

theorem exec_addI (x : Nibble) (s : State) :
    exec (.addI x) s = .next (s.setIdx (s.idx + addend (s.reg x))).next := rfl

theorem exec_ldFont (x : Nibble) (s : State) : exec (.ldFont x) s = .next (s.setIdx (glyphAddr (s.reg x))).next := rfl

theorem exec_rnd (x : Nibble) (nn : Byte) (s : State) :
    exec (.rnd x nn) s = .next (s.drawRandom.2.setReg x (s.drawRandom.1 &&& nn)).next := rfl

theorem exec_ldKey_of_none (x : Nibble) (s : State) (h : s.lowestKey = none) : exec (.ldKey x) s = .next s.wait := by
  simp only [exec, execLdKey, h]

theorem exec_ldKey_of_some (x : Nibble) (s : State) (k : Fin 16) (h : s.lowestKey = some k) :
    exec (.ldKey x) s = .next (s.setReg x (BitVec.ofNat 8 k.val)).next := by
  simp only [exec, execLdKey, h]

theorem exec_drw_of_outside (x y n : Nibble) (s : State) (h : ¬ inMemory s.idx.toNat n.toNat = true) :
    exec (.drw x y n) s = .next (s.takeDataOob (.drw x y n)) := if_neg h

/-! ### Every instruction ends so -/

/-- An instruction that ends by default or by a skip (R25, R126). -/
theorem ends_past {i : Instr} {s u : State} (fine : i.raises s = none) (wrote : Wrote s i u) (same_pc : u.pc = s.pc)
    (skips : Bool) : Ends s i (u.skipIf skips) := by
  rw [skipIf_eq_goto, same_pc]
  exact .completed fine wrote (.past skips)

theorem ends_reg {i : Instr} {s : State} {x : Nibble} {b : Byte} (fine : i.raises s = none) (hx : x ∈ i.writes) :
    Ends s i (s.setReg x b).next := ends_past fine (.reg b hx) rfl false

theorem ends_flagged {i : Instr} {s : State} {x : Nibble} {f : Flagged} (fine : i.raises s = none)
    (row : i.writes = [x, 0xF#4]) : Ends s i (s.setFlagged x f).next :=
  ends_past fine (.flagged f (by simp [row]) (by simp [row])) rfl false

theorem ends_skip {i : Instr} {s : State} {c : Bool} (fine : i.raises s = none) : Ends s i (s.skipIf c) :=
  ends_past fine (.nothing i) rfl c

theorem ends_bytes {i : Instr} {s : State} {bs : List Byte} (fine : i.raises s = none)
    (writer : (∃ x, i = .ldBcd x) ∨ ∃ x, i = .store x) (short : bs.length ≤ 16)
    (inside : s.idx.toNat + bs.length ≤ Config.memSize) : Ends s i (s.writeBytes s.idx.toNat bs).next :=
  ends_past fine (.bytes writer short inside) rfl false

/-- Everything an instruction can do: there is a next state, by one of the ways to end. -/
theorem exec_ends (i : Instr) (s : State) : ∃ t, exec i s = .next t ∧ Ends s i t := by
  cases i with
  | cls u => exact ⟨_, exec_cls u s, ends_past rfl (.cleared u) rfl false⟩
  | ret u =>
    rcases Nat.eq_zero_or_pos s.sp.val with empty | used
    · exact ⟨_, exec_ret_of_empty u s empty, .fatal (if_pos empty)⟩
    · exact ⟨_, exec_ret_of_used u s used, .completed (if_neg (Nat.ne_of_gt used)) (.popped u used) (.back used)⟩
  | jp nnn => exact ⟨_, exec_jp nnn s, .completed rfl (.nothing _) (.jump nnn)⟩
  | call nnn =>
    rcases Nat.eq_or_lt_of_le (Nat.le_of_lt_succ s.sp.isLt) with full | room
    · exact ⟨_, exec_call_of_full nnn s full, .fatal (if_pos full)⟩
    · exact ⟨_, exec_call_of_room nnn s room,
        .completed (if_neg (Nat.ne_of_lt room)) (.pushed nnn room) (.jump nnn)⟩
  | jpV0 nnn => exact ⟨_, exec_jpV0 nnn s, .completed rfl (.nothing _) (.offset nnn _)⟩
  | seImm x nn => exact ⟨_, rfl, ends_skip rfl⟩
  | sneImm x nn => exact ⟨_, rfl, ends_skip rfl⟩
  | seReg x y u => exact ⟨_, rfl, ends_skip rfl⟩
  | sneReg x y u => exact ⟨_, rfl, ends_skip rfl⟩
  | skp x => exact ⟨_, rfl, ends_skip rfl⟩
  | sknp x => exact ⟨_, rfl, ends_skip rfl⟩
  | ldImm x nn => exact ⟨_, exec_ldImm x nn s, ends_reg rfl List.mem_cons_self⟩
  | addImm x nn => exact ⟨_, exec_addImm x nn s, ends_reg rfl List.mem_cons_self⟩
  | ldReg x y => exact ⟨_, exec_ldReg x y s, ends_reg rfl List.mem_cons_self⟩
  | or x y => exact ⟨_, exec_or x y s, ends_reg rfl List.mem_cons_self⟩
  | and x y => exact ⟨_, exec_and x y s, ends_reg rfl List.mem_cons_self⟩
  | xor x y => exact ⟨_, exec_xor x y s, ends_reg rfl List.mem_cons_self⟩
  | ldDt x => exact ⟨_, exec_ldDt x s, ends_reg rfl List.mem_cons_self⟩
  | addVxVy x y => exact ⟨_, exec_addVxVy x y s, ends_flagged rfl rfl⟩
  | subVxVy x y => exact ⟨_, exec_subVxVy x y s, ends_flagged rfl rfl⟩
  | shr x y => exact ⟨_, exec_shr x y s, ends_flagged rfl rfl⟩
  | subn x y => exact ⟨_, exec_subn x y s, ends_flagged rfl rfl⟩
  | shl x y => exact ⟨_, exec_shl x y s, ends_flagged rfl rfl⟩
  | rnd x nn => exact ⟨_, exec_rnd x nn s, ends_past rfl (.random x nn _) rfl false⟩
  | ldI nnn => exact ⟨_, exec_ldI nnn s, ends_past rfl (.index _ _) rfl false⟩
  | addI x => exact ⟨_, exec_addI x s, ends_past rfl (.index _ _) rfl false⟩
  | ldFont x => exact ⟨_, exec_ldFont x s, ends_past rfl (.index _ _) rfl false⟩
  | setDt x => exact ⟨_, exec_setDt x s, ends_past rfl (.delay x _) rfl false⟩
  | setSt x => exact ⟨_, exec_setSt x s, ends_past rfl (.sound x _) rfl false⟩
  | ldKey x =>
    cases found : s.lowestKey with
    | none => exact ⟨_, exec_ldKey_of_none x s found, .waiting x⟩
    | some k => exact ⟨_, exec_ldKey_of_some x s k found, ends_reg rfl List.mem_cons_self⟩
  | drw x y n =>
    have outside_iff : ¬ inMemory s.idx.toNat n.toNat = true ↔
        1 ≤ n.toNat ∧ s.idx.toNat + n.toNat - 1 > 4095 := by
      rw [inMemory_iff]
      omega
    by_cases inside : inMemory s.idx.toNat n.toNat = true
    · obtain ⟨q, -, runs⟩ := exec_drw_of_inMemory x y n s inside
      have fine : (Instr.drw x y n).raises s = none := if_neg fun outside => outside_iff.2 outside inside
      exact ⟨_, runs, ends_past fine (.drawn x y n q.1 q.2) rfl false⟩
    · exact ⟨_, exec_drw_of_outside x y n s inside, .fatal (if_pos (outside_iff.1 inside))⟩
  | ldBcd x =>
    by_cases outside : s.idx.toNat + 2 > 4095
    · exact ⟨_, exec_ldBcd_of_outside x s outside, .fatal (if_pos outside)⟩
    · have inside : s.idx.toNat + 2 < 4096 := Nat.lt_succ_of_le (Nat.not_lt.1 outside)
      exact ⟨_, exec_ldBcd_of_inMemory x s (Nat.not_lt.1 outside),
        ends_bytes (if_neg outside) (.inl ⟨x, rfl⟩) (by decide : 3 ≤ 16) inside⟩
  | store x =>
    by_cases outside : s.idx.toNat + x.toNat > 4095
    · exact ⟨_, exec_store_of_outside x s outside, .fatal (if_pos outside)⟩
    · have length := regsUpTo_length s x
      have inside : s.idx.toNat + x.toNat < 4096 := Nat.lt_succ_of_le (Nat.not_lt.1 outside)
      exact ⟨_, exec_store_of_inMemory x s (Nat.not_lt.1 outside),
        ends_bytes (if_neg outside) (.inr ⟨x, rfl⟩) (length ▸ x.isLt) (length ▸ inside)⟩
  | load x =>
    by_cases outside : s.idx.toNat + x.toNat > 4095
    · exact ⟨_, exec_load_of_outside x s outside, .fatal (if_pos outside)⟩
    · obtain ⟨kept, -⟩ := onlyRegs_loadRegs s x _ (readBytes_length s s.idx.toNat (x.toNat + 1))
      have fine : (Instr.load x).raises s = none := if_neg outside
      have wrote : Wrote s (.load x) (s.loadRegs (s.readBytes s.idx.toNat (x.toNat + 1))) := .regs kept
      exact ⟨_, exec_load_of_inMemory x s (Nat.not_lt.1 outside), ends_past fine wrote rfl false⟩

theorem ends_of_exec {i : Instr} {s t : State} (runs : exec i s = .next t) : Ends s i t := by
  obtain ⟨t', runs', ends⟩ := exec_ends i s
  rw [runs] at runs'
  rwa [Host.Outcome.next.inj runs']

/-- Settles O13: exec by the ways to end, and each way a cycle can go is an exec or a next state. -/
theorem everyCycleEndsInANextState : Obligations.EveryCycleEndsInANextState := by
  have exec_next (i : Instr) (s : State) : ∃ t, exec i s = .next t := by
    obtain ⟨t, runs, -⟩ := exec_ends i s
    exact ⟨t, runs⟩
  refine ⟨exec_next, fun s => ?_⟩
  rcases cycle_cases s with ⟨-, halted⟩ | ⟨-, -, outside⟩ | ⟨-, -, i, -, runs⟩ | ⟨-, -, r, -, reported⟩
  · exact ⟨_, halted⟩
  · exact ⟨_, outside⟩
  · rw [runs]
    exact exec_next i s
  · exact ⟨_, reported⟩

/-! ### What each part leaves unchanged -/

namespace Wrote

variable {s u : State} {i : Instr}

theorem sameRegsBut (wrote : Wrote s i u) : SameRegsBut i.writes s u := by
  cases wrote with
  | regs kept => exact kept
  | random x nn b =>
    intro r other
    exact (reg_setReg s.drawRandom.2 x r b).trans (if_neg (by simpa [Instr.writes] using other))
  | drawn x y n fb flag =>
    intro r other
    exact (reg_setFlag (s.setScreen fb) r flag).trans (if_neg (by simpa [Instr.writes] using other))
  | _ => exact fun _ _ => rfl

theorem sameStack (wrote : Wrote s i u) (not_call : ∀ n, i ≠ .call n) (not_ret : ∀ x, i ≠ .ret x) : SameStack s u := by
  cases wrote with
  | pushed nnn => exact absurd rfl (not_call nnn)
  | popped x => exact absurd rfl (not_ret x)
  | _ => exact ⟨rfl, rfl⟩

theorem same_dt (wrote : Wrote s i u) (not_setDt : ∀ x, i ≠ .setDt x) : u.dt = s.dt := by
  cases wrote with
  | delay x => exact absurd rfl (not_setDt x)
  | _ => rfl

theorem same_st (wrote : Wrote s i u) (not_setSt : ∀ x, i ≠ .setSt x) : u.st = s.st := by
  cases wrote with
  | sound x => exact absurd rfl (not_setSt x)
  | _ => rfl

theorem same_key (wrote : Wrote s i u) : u.key = s.key := by
  cases wrote <;> rfl

theorem same_pending (wrote : Wrote s i u) : u.pending = s.pending := by
  cases wrote <;> rfl

theorem sameLatches (wrote : Wrote s i u) : SameLatches s u := by
  cases wrote <;> exact ⟨rfl, rfl, rfl, rfl, rfl, rfl, rfl⟩

theorem sameScreen (wrote : Wrote s i u) (not_cls : ∀ x, i ≠ .cls x) (not_drw : ∀ x y n, i ≠ .drw x y n) :
    SameScreen s u := by
  cases wrote with
  | cleared x => exact absurd rfl (not_cls x)
  | drawn x y n => exact absurd rfl (not_drw x y n)
  | _ => exact ⟨rfl, rfl⟩

/-- Only LD_BCD and STORE write memory, and they write at most sixteen bytes at I, all of them in memory (R61). -/
theorem mem_cases (wrote : Wrote s i u) : u.mem = s.mem ∨
    (((∃ x, i = .ldBcd x) ∨ ∃ x, i = .store x) ∧ ∃ bs : List Byte, bs.length ≤ 16 ∧
      s.idx.toNat + bs.length ≤ Config.memSize ∧ u.mem = Memory.writeBytes s.mem s.idx.toNat bs) := by
  cases wrote with
  | bytes writer short inside => exact .inr ⟨writer, _, short, inside, rfl⟩
  | _ => exact .inl rfl

theorem keeps_drawPending (wrote : Wrote s i u) (pending : s.drawPending = true) : u.drawPending = true := by
  cases wrote with
  | cleared | drawn => rfl
  | _ => exact pending

end Wrote

/-! ### The rules about all instructions -/

/-- Settles O40: a fatal end is the entry to the condition raised; the others raise none and leave the latches. -/
theorem fatalCycleChangesOnlyTheLatches : Obligations.FatalCycleChangesOnlyTheLatches := by
  intro i s t runs
  cases ends_of_exec runs with
  | @fatal _ c raised =>
    refine ⟨fun c' raised' => ?_, fun fine => nomatch raised.symm.trans fine⟩
    obtain rfl : c = c' := Option.some.inj (raised.symm.trans raised')
    have := s.idx.isLt
    exact tookFatal_takeFatal s c _ _ (by split <;> omega)
  | waiting x => exact ⟨fun _ raised => (nomatch raised), fun _ => ⟨nofun, rfl, rfl, rfl, rfl, rfl, rfl, rfl⟩⟩
  | completed fine wrote goes =>
    exact ⟨fun _ raised => (nomatch fine.symm.trans raised), fun _ => ⟨nofun, wrote.sameLatches⟩⟩

/-- Settles O41: what was written first leaves the other registers alone, and no end writes a register. -/
theorem onlyTheListedRegistersAreWritten : Obligations.OnlyTheListedRegistersAreWritten := by
  intro i s t runs
  cases ends_of_exec runs with
  | fatal | waiting => exact fun _ _ => rfl
  | completed fine wrote goes => exact wrote.sameRegsBut

/-- Settles O42: memory is as before, or the instruction is LD_BCD or STORE and wrote at most sixteen bytes at I. -/
theorem onlyLdBcdAndStoreWriteMemory : Obligations.OnlyLdBcdAndStoreWriteMemory := by
  intro i s t runs
  cases ends_of_exec runs with
  | fatal | waiting => exact ⟨fun _ _ _ => rfl, fun _ _ => rfl⟩
  | completed fine wrote goes =>
    rcases wrote.mem_cases with same | ⟨writer, bs, short, -, written⟩
    · exact ⟨fun _ _ => readByte_of_mem_eq same, fun a _ => readByte_of_mem_eq same a⟩
    · refine ⟨fun not_ldBcd not_store => ?notWriter, fun a outside => ?outside⟩
      case notWriter =>
        rcases writer with ⟨x, rfl⟩ | ⟨x, rfl⟩
        · exact absurd rfl (not_ldBcd x)
        · exact absurd rfl (not_store x)
      case outside =>
        simp only [State.readByte, goto_mem, written, Memory.read_writeBytes]
        exact dif_neg (by omega)

theorem drawPending_of_exec_cls {u : Nibble} {s t : State} (runs : exec (.cls u) s = .next t) :
    t.drawPending = true := by
  rw [exec_cls] at runs
  cases runs
  rfl

theorem drawPending_of_exec_drw {x y n : Nibble} {s t : State} (runs : exec (.drw x y n) s = .next t)
    (done : t.status = .done) : t.drawPending = true := by
  by_cases inside : inMemory s.idx.toNat n.toNat = true
  · obtain ⟨q, -, drawn⟩ := exec_drw_of_inMemory x y n s inside
    rw [drawn] at runs
    cases runs
    rfl
  · rw [exec_drw_of_outside x y n s inside] at runs
    cases runs
    cases done

/-- Settles O43: only the parts that CLS and DRW write touch the screen; CLS always completes, and a DRW that does not
has status FATAL. -/
theorem onlyClsAndDrwTouchTheScreen : Obligations.OnlyClsAndDrwTouchTheScreen := by
  intro i s t runs
  have set_if_done : ((∃ u, i = .cls u) ∨ ∃ x y n, i = .drw x y n) → t.status = .done → t.drawPending = true := by
    rintro (⟨u, rfl⟩ | ⟨x, y, n, rfl⟩) done
    · exact drawPending_of_exec_cls runs
    · exact drawPending_of_exec_drw runs done
  cases ends_of_exec runs with
  | fatal | waiting => exact ⟨fun _ _ => ⟨rfl, rfl⟩, set_if_done, id⟩
  | completed fine wrote goes => exact ⟨wrote.sameScreen, set_if_done, wrote.keeps_drawPending⟩

/-- Settles O44: the parts other than the instruction's own hold these fields as before, and no end writes them. -/
theorem cyclesLeaveKeypadStackAndTimers : Obligations.CyclesLeaveKeypadStackAndTimers := by
  intro i s t runs
  cases ends_of_exec runs with
  | fatal | waiting => exact ⟨rfl, fun _ _ => ⟨rfl, rfl⟩, fun _ => rfl, fun _ => rfl⟩
  | completed fine wrote goes => exact ⟨wrote.same_key, wrote.sameStack, wrote.same_dt, wrote.same_st⟩

end Sys2Proof.Machine

/-! PROOFS. The step (spec/40_cycle.md R120 to R129, spec/60_exceptions.md R303, R305, R315): what it adds around an
operation of the host, the cycles that run no instruction, the ROM load, which is the one operation that can have no
next state (spec/49_host_operations.md R275), and the halt. -/

namespace Sys2Proof.Machine

/-! ### The host's next operation -/

/-- The next operation is the first of the list, or a Step if there is none. -/
theorem takeOp_fst (s : State) : s.takeOp.1 = s.pending.headD .step := by
  rcases takeOp_cases s with ⟨empty, taken⟩ | ⟨op, rest, nonempty, taken⟩
  · rw [taken, empty, List.headD_nil]
  · rw [taken, nonempty, List.headD_cons]

/-- Taking an operation off the list changes the list alone. -/
theorem takeOp_snd (s : State) : s.takeOp.2 = { s with pending := s.pending.tail } := by
  rcases takeOp_cases s with ⟨empty, taken⟩ | ⟨op, rest, nonempty, taken⟩
  · rw [taken, empty, List.tail_nil, ← empty]
  · rw [taken, nonempty, List.tail_cons]

theorem step_eq_perform (s : State) : step s = perform s.takeOp.1 { s with pending := s.pending.tail } := by
  rw [step, takeOp_snd]

theorem halted_eq_false_iff (s : State) : s.halted = false ↔ s.fatalCause = .none := by
  simp [State.halted]

theorem halted_of_fatalCause_ne {s : State} (h : s.fatalCause ≠ .none) : s.halted = true := by
  rw [← Bool.not_eq_false, halted_eq_false_iff]
  exact h

/-- Settles O9: the two things done before the cycle, the operation taken off the list and the load closed, change
neither pc nor memory nor the latches. -/
theorem stepRunsTheDecodedInstruction : Obligations.StepRunsTheDecodedInstruction := by
  intro s i next_op running inside decoded
  rw [step_eq_perform, takeOp_snd, next_op]
  exact cycle_of_ok ((halted_eq_false_iff s).2 running) ((fetchable_iff s).2 inside) decoded

/-! ### The cycles that run no instruction -/

/-- Settles O10: the cycle is the report of the word, which writes its latches, pc and the status only. -/
theorem unrecognisedWordIsReportedAndSkipped : Obligations.UnrecognisedWordIsReportedAndSkipped := by
  rintro s running inside ⟨r, undecoded⟩
  have reported := cycle_of_error ((halted_eq_false_iff s).2 running) ((fetchable_iff s).2 inside) undecoded
  exact ⟨_, reported, rfl, rfl, rfl, toNat_add_two s.pc, rfl, fun _ _ => rfl, rfl, fun _ => rfl, ⟨rfl, rfl⟩,
    ⟨rfl, rfl⟩, ⟨rfl, rfl⟩, running, rfl, rfl, rfl, ⟨rfl, rfl, rfl, rfl⟩⟩

/-- Settles O11: the cycle is the entry to FETCH_OOB. -/
theorem fetchOutsideMemoryIsFatal : Obligations.FetchOutsideMemoryIsFatal := by
  intro s running outside
  have unfetchable : s.fetchable = false := by
    rw [← Bool.not_eq_true, fetchable_iff]
    omega
  exact ⟨_, cycle_of_unfetchable ((halted_eq_false_iff s).2 running) unfetchable, tookFatal_takeFetchOob s⟩

/-! ### The ROM load -/

/-- The state a ROM load leaves (R275). -/
def State.romLoaded (s : State) (image : List Byte) : State :=
  { s.writeBytes Config.programBase (romBytes image) with loadOpen := false }

theorem romLoad_of_open {s : State} {image : List Byte} (permitted : s.loadOpen = true)
    (fits : image.length ≤ 3584) : s.romLoad image = .next (s.romLoaded image) := by
  have not_long : ¬ image.length > Config.romMax := Nat.not_lt.2 fits
  simp only [State.romLoad, permitted, not_long, Bool.not_true, Bool.false_eq_true, if_false]
  rfl

theorem romLoad_of_long {s : State} {image : List Byte} (permitted : s.loadOpen = true)
    (long : image.length > 3584) : s.romLoad image = .fault .romLoadFailed := by
  have too_long : image.length > Config.romMax := long
  simp only [State.romLoad, permitted, too_long, Bool.not_true, Bool.false_eq_true, if_false, if_true]

theorem romLoad_of_closed {s : State} {image : List Byte} (closed : s.loadOpen = false) :
    s.romLoad image = .refused .romLoadOutOfTurn := by
  simp only [State.romLoad, closed, Bool.not_false, if_true]

/-- A ROM load with a next state has placed an image that fits. -/
theorem romLoad_eq_next {s t : State} {image : List Byte} (loaded : s.romLoad image = .next t) :
    image.length ≤ 3584 ∧ t = s.romLoaded image := by
  cases permitted : s.loadOpen with
  | false =>
    rw [romLoad_of_closed permitted] at loaded
    cases loaded
  | true =>
    rcases Nat.lt_or_ge 3584 image.length with long | fits
    · rw [romLoad_of_long permitted long] at loaded
      cases loaded
    · rw [romLoad_of_open permitted fits] at loaded
      exact ⟨fits, (Host.Outcome.next.inj loaded).symm⟩

/-- An image that fits and the zeros after it fill the program region (R72). -/
theorem length_romBytes {image : List Byte} (fits : image.length ≤ 3584) : (romBytes image).length = 3584 := by
  rw [romBytes, List.length_append, List.length_replicate, Config.romMax]
  omega

theorem romLoaded_readByte {s : State} {image : List Byte} (fits : image.length ≤ 3584) (a : Nat) :
    (s.romLoaded image).readByte a =
      if h : 0x200 ≤ a ∧ a ≤ 0xFFF then (romBytes image)[a - 0x200]'(by rw [length_romBytes fits]; omega)
      else s.readByte a := by
  have region : 0x200 ≤ a ∧ a < 0x200 + (romBytes image).length ↔ 0x200 ≤ a ∧ a ≤ 0xFFF := by
    rw [length_romBytes fits]
    omega
  have placed := readByte_writeBytes s 0x200 a (romBytes image)
  simp only [region] at placed
  exact placed

/-- Settles O49: the bytes written are the image and then zeros, and fill the program region; the other two clauses are
the tests of the load. -/
theorem romLoadPlacesTheImage : Obligations.RomLoadPlacesTheImage := by
  refine ⟨fun s image permitted fits => ⟨_, romLoad_of_open permitted fits, fun k hk => ?placed,
    fun a above inside => ?zeros, fun a outside => ?kept, rfl, rfl⟩, fun s image => romLoad_of_long,
    fun s image => romLoad_of_closed⟩
  case placed =>
    rw [romLoaded_readByte fits, dif_pos (by omega)]
    simp only [Nat.add_sub_cancel_left, romBytes, List.getElem_append_left hk]
  case zeros =>
    rw [romLoaded_readByte fits, dif_pos (by omega)]
    simp only [romBytes, List.getElem_append_right (show image.length ≤ a - 0x200 by omega), List.getElem_replicate]
  case kept => rw [romLoaded_readByte fits, dif_neg (by omega)]

/-! ### Halting -/

/-- Settles O12: a halted cycle writes the status alone, and no operation but reset writes the latched cause. -/
theorem haltedUntilReset : Obligations.HaltedUntilReset := by
  intro s latched
  have halted := halted_of_fatalCause_ne latched
  refine ⟨⟨_, cycle_of_halted halted, rfl, rfl⟩, fun op t performed => ?kept, ⟨_, rfl, rfl⟩⟩
  case kept =>
    cases op with
    | reset => exact .inr rfl
    | step =>
      obtain rfl := Host.Outcome.next.inj ((cycle_of_halted (s := s.closeLoad) halted).symm.trans performed)
      exact .inl rfl
    | romLoad image =>
      obtain ⟨-, rfl⟩ := romLoad_eq_next performed
      exact .inl rfl
    | _ =>
      cases performed
      exact .inl rfl

end Sys2Proof.Machine

/-! PROOFS. The invariant (spec/10_state.md R26, R35, R36; spec/40_cycle.md R127; spec/60_exceptions.md R300 to R315).
A cycle keeps it by the ways an instruction ends: pc goes to one of few places, CALL pushes the only new return address,
and a fatal end latches the condition it was raised by. The host's other operations write none of the fields it speaks
of but memory. -/

namespace Sys2Proof.Machine

/-! ### The latches -/

theorem latchesTell_iff_of_running {s : State} (running : s.fatalCause = .none) :
    s.LatchesTell ↔ s.faultPc = 0#16 ∧ s.faultWord = 0#16 ∧ s.faultAddr = 0#17 := by
  simp only [State.LatchesTell, running]

theorem latchesTell_of_sameLatches {s t : State} (running : s.fatalCause = .none) (tell : s.LatchesTell)
    (same : SameLatches s t) : t.LatchesTell := by
  obtain ⟨cause, pc, word, addr, -⟩ := same
  rw [latchesTell_iff_of_running running] at tell
  rwa [latchesTell_iff_of_running (cause.trans running), pc, word, addr]

theorem reportTells_of_sameLatches {s t : State} (tell : s.ReportTells) (same : SameLatches s t) : t.ReportTells := by
  obtain ⟨-, -, -, -, word, addr, count⟩ := same
  simpa only [State.ReportTells, word, addr, count] using tell

/-- Which instruction raises which condition (R308). -/
theorem raises_cases {i : Instr} {s : State} {c : Cause} (raised : i.raises s = some c) :
    (c = .stackOverflow ∧ s.sp.val = 16 ∧ ∃ nnn, i = .call nnn) ∨
    (c = .stackUnderflow ∧ s.sp.val = 0 ∧ ∃ u, i = .ret u) ∨ c = .dataOob := by
  cases i with
  | call nnn =>
    obtain ⟨full, cause⟩ := Option.ite_none_right_eq_some.1 raised
    exact .inl ⟨(Option.some.inj cause).symm, full, nnn, rfl⟩
  | ret u =>
    obtain ⟨empty, cause⟩ := Option.ite_none_right_eq_some.1 raised
    exact .inr (.inl ⟨(Option.some.inj cause).symm, empty, u, rfl⟩)
  | drw | ldBcd | store | load =>
    obtain ⟨-, cause⟩ := Option.ite_none_right_eq_some.1 raised
    exact .inr (.inr (Option.some.inj cause).symm)
  | _ => cases raised

/-- The entry to the condition an instruction raises latches what `LatchesTell` asks for: the word of the instruction
decodes to it again. -/
theorem latchesTell_takeFatal {i : Instr} {s : State} {c : Cause} (raised : i.raises s = some c) :
    (s.takeFatal c (encode i) (if c = .dataOob then max s.idx.toNat 4096 else 0)).LatchesTell := by
  have decoded := decodeOfEncodeIsTheInstruction i
  rcases raises_cases raised with ⟨rfl, full, nnn, rfl⟩ | ⟨rfl, empty, u, rfl⟩ | rfl
  · exact ⟨rfl, full, rfl, nnn, decoded⟩
  · exact ⟨rfl, empty, rfl, u, decoded⟩
  · exact ⟨rfl, faultAddr_toNat s.idx, i, decoded, raised⟩

theorem raises_ne_none {i : Instr} {s : State} {c : Cause} (raised : i.raises s = some c) : c ≠ .none := by
  rcases raises_cases raised with ⟨rfl, -⟩ | ⟨rfl, -⟩ | rfl <;> decide

/-! ### Memory, pc and the return addresses -/

theorem Wrote.wf_mem {s u : State} {i : Instr} (wrote : Wrote s i u) (canonical : Memory.wf s.mem = true) :
    Memory.wf u.mem = true := by
  rcases wrote.mem_cases with same | ⟨-, bs, -, inside, written⟩
  · rwa [same]
  · rw [written]
    exact Memory.wf_writeBytes _ _ _ canonical inside

/-- The address a CALL pushes is its own plus 2, and the CALL was fetched from memory. -/
theorem Wrote.returns {s u : State} {i : Instr} (wrote : Wrote s i u) (inv : s.Inv) (inside : s.pc.toNat ≤ 4094) :
    ∀ k : Fin 16, k.val < u.sp.val → 2 ≤ u.stack[k].toNat ∧ u.stack[k].toNat ≤ 4096 := by
  cases wrote with
  | pushed nnn room =>
    intro k used
    have pushed : (s.pc + 2#16).toNat = s.pc.toNat + 2 := by
      rw [toNat_add_two]
      omega
    simp only [Fin.getElem_fin, Vector.getElem_set]
    split
    · omega
    · exact inv.returns k (by simp only at used; omega)
  | popped u used =>
    intro k below
    exact inv.returns k (by simp only at below; omega)
  | _ => exact inv.returns

theorem GoesTo.bound {s : State} {w : Word} (goes : GoesTo s w) (inv : s.Inv) (inside : s.pc.toNat ≤ 4094) :
    w.toNat ≤ 0x10FE := by
  cases goes with
  | past skips =>
    cases skips
    · rw [if_neg Bool.false_ne_true, toNat_add_two]
      omega
    · rw [if_pos rfl, toNat_add_four]
      omega
  | jump nnn =>
    have := nnn.isLt
    rw [target_toNat]
    omega
  | offset nnn b => exact target_add_addend_le nnn b
  | back used =>
    obtain ⟨-, le⟩ := inv.returns ⟨s.sp.val - 1, by omega⟩ (Nat.sub_lt used Nat.one_pos)
    exact le.trans (by decide)

/-! ### The cycle -/

/-- A next state in which no condition has been latched. -/
theorem inv_of_running {s t : State} (inv : s.Inv) (running : s.fatalCause = .none) (same : SameLatches s t)
    (status : t.status ≠ .fatal) (memory : Memory.wf t.mem = true) (pcBound : t.pc.toNat ≤ 0x10FE)
    (returns : ∀ k : Fin 16, k.val < t.sp.val → 2 ≤ t.stack[k].toNat ∧ t.stack[k].toNat ≤ 4096) : t.Inv := by
  have not_halted : t.halted = false := (halted_eq_false_iff t).2 (same.1.trans running)
  exact {
    memory, pcBound, returns
    status := by simp only [status, not_halted, Bool.false_eq_true]
    latches := latchesTell_of_sameLatches running inv.latches same
    report := reportTells_of_sameLatches inv.report same }

theorem exec_keeps_inv {i : Instr} {s t : State} (inv : s.Inv) (running : s.fatalCause = .none)
    (inside : s.pc.toNat ≤ 4094) (runs : exec i s = .next t) : t.Inv := by
  cases ends_of_exec runs with
  | fatal raised =>
    exact ⟨inv.memory, inv.pcBound, inv.returns,
      ⟨fun _ => halted_of_fatalCause_ne (raises_ne_none raised), fun _ => rfl⟩, latchesTell_takeFatal raised,
      inv.report⟩
  | waiting x =>
    exact inv_of_running inv running ⟨rfl, rfl, rfl, rfl, rfl, rfl, rfl⟩ nofun inv.memory inv.pcBound inv.returns
  | completed fine wrote goes =>
    exact inv_of_running inv running wrote.sameLatches nofun (wrote.wf_mem inv.memory) (goes.bound inv inside)
      (wrote.returns inv inside)

theorem takeFetchOob_keeps_inv {s : State} (inv : s.Inv) (outside : s.fetchable = false) : s.takeFetchOob.Inv := by
  have beyond : 4095 ≤ s.pc.toNat := by
    rw [← Bool.not_eq_true, fetchable_iff] at outside
    omega
  exact ⟨inv.memory, inv.pcBound, inv.returns, ⟨fun _ => rfl, fun _ => rfl⟩,
    ⟨rfl, beyond, rfl, faultAddr_toNat s.pc⟩, inv.report⟩

theorem report_keeps_inv {s : State} {r : Reject} (inv : s.Inv) (running : s.fatalCause = .none)
    (inside : s.pc.toNat ≤ 4094) (undecoded : decodeWord s.fetchWord = .error r) : (s.report s.fetchWord).Inv := by
  have not_halted : (s.report s.fetchWord).halted = false := (halted_eq_false_iff s).2 running
  refine ⟨inv.memory, ?pcBound, inv.returns, ⟨nofun, fun halted => ?status⟩, ?latches,
    .inr ⟨Nat.succ_pos _, ⟨r, undecoded⟩, inside⟩⟩
  case pcBound => exact (GoesTo.past false).bound inv inside
  case status => cases not_halted.symm.trans halted
  case latches =>
    exact (latchesTell_iff_of_running (s := s.report s.fetchWord) running).2
      ((latchesTell_iff_of_running running).1 inv.latches)

theorem cycle_keeps_inv {s t : State} (inv : s.Inv) (performed : cycle s = .next t) : t.Inv := by
  rcases cycle_cases s with ⟨halted, hc⟩ | ⟨-, outside, hc⟩ | ⟨running, inside, i, -, hc⟩ |
    ⟨running, inside, r, undecoded, hc⟩
  all_goals rw [hc] at performed
  case inl =>
    cases performed
    exact ⟨inv.memory, inv.pcBound, inv.returns, ⟨fun _ => halted, fun _ => rfl⟩, inv.latches, inv.report⟩
  case inr.inl =>
    cases performed
    exact takeFetchOob_keeps_inv inv outside
  all_goals
    rw [halted_eq_false_iff] at running
    rw [fetchable_iff] at inside
  case inr.inr.inl => exact exec_keeps_inv inv running inside performed
  case inr.inr.inr =>
    cases performed
    exact report_keeps_inv inv running inside undecoded

/-! ### The host's operations -/

/-- The fields the invariant says nothing of, and memory as long as it stays canonical. -/
theorem inv_of_otherFields {s : State} (inv : s.Inv) (dt st : Byte) (key : Vector Bool 16) (drawPending : Bool)
    (mem : Memory) (canonical : Memory.wf mem = true) (rndIndex : Nat) (loadOpen : Bool) (pending : List HostOp) :
    State.Inv { s with dt, st, key, drawPending, mem, rndIndex, loadOpen, pending } :=
  ⟨canonical, inv.pcBound, inv.returns, inv.status, inv.latches, inv.report⟩

/-- Settles O38: memory lists nothing, no entry is on the stack, and nothing is latched. -/
theorem resetHasTheInvariant : Obligations.ResetHasTheInvariant where
  memory := rfl
  pcBound := by decide
  returns := fun _ used => absurd used (Nat.not_lt_zero _)
  status := by decide
  latches := ⟨rfl, rfl, rfl⟩
  report := .inl ⟨rfl, rfl, rfl⟩

theorem perform_keeps_inv {op : HostOp} {s t : State} (inv : s.Inv) (performed : perform op s = .next t) : t.Inv := by
  cases op with
  | step => exact cycle_keeps_inv (inv_of_otherFields inv _ _ _ _ _ inv.memory _ _ _) performed
  | reset =>
    cases performed
    exact inv_of_otherFields resetHasTheInvariant _ _ _ _ _ rfl _ _ _
  | romLoad image =>
    obtain ⟨fits, rfl⟩ := romLoad_eq_next performed
    have inside : Config.programBase + (romBytes image).length ≤ Config.memSize := by
      rw [length_romBytes fits]
      decide
    exact inv_of_otherFields inv _ _ _ _ _ (Memory.wf_writeBytes _ _ _ inv.memory inside) _ _ _
  | _ =>
    cases performed
    exact inv_of_otherFields inv _ _ _ _ _ inv.memory _ _ _

/-- Settles O39: taking the operation off the host's list writes no field the invariant speaks of, and performing it
keeps the invariant. -/
theorem everyStepKeepsTheInvariant : Obligations.EveryStepKeepsTheInvariant := by
  intro s t inv stepped
  rw [step_eq_perform] at stepped
  exact perform_keeps_inv (inv_of_otherFields inv _ _ _ _ _ inv.memory _ _ _) stepped

end Sys2Proof.Machine

/-! PROOFS. The instructions no earlier part settles: CALL and RET together, the shifts, the writers of I, RND, the
keypad instructions, and a STORE over the next word (spec/41, 44, 45, 47 and 48, spec/20_memory.md). Each is one of the
shared updates (a flagged write, a register write, a jump, a skip), and the laws of that update give the frame. -/

namespace Sys2Proof.Machine

/-! ### CALL and RET together -/

/-- Settles O18: RET reads back the slot that CALL wrote, and both are jumps from a state that differs in the stack. -/
theorem callThenRetReturns : Obligations.CallThenRetReturns := by
  intro nnn u s room
  refine ⟨_, _, exec_call_of_room nnn s room, exec_ret_of_used u _ (Nat.succ_pos _), ?returned, rfl, ?otherSlots,
    fun _ _ => rfl, rfl, fun _ => rfl, ⟨rfl, rfl⟩, ⟨rfl, rfl⟩, ⟨rfl, rfl, rfl, rfl, rfl, rfl, rfl⟩⟩
  case returned =>
    simp only [goto_pc, goto_stack, goto_sp, Nat.add_sub_cancel, Vector.getElem_set_self]
    exact toNat_add_two s.pc
  case otherSlots => exact fun k other => Vector.getElem_set_ne room k.isLt (Ne.symm other)

/-! ### Shifts -/

/-- `exec_writes_flagged`, with VF given as a number. -/
theorem exec_writes_flag_bit {i : Instr} {s : State} {x : Nibble} {f : Flagged}
    (hexec : exec i s = .next (s.setFlagged x f).next) :
    ∃ t, exec i s = .next t ∧ (x ≠ 0xF#4 → t.reg x = f.result) ∧ (t.reg 0xF#4).toNat = f.flag.toNat ∧
      Advanced s t ∧ OnlyRegs [x, 0xF#4] s t := by
  obtain ⟨t, runs, result, set, clear, rest⟩ := exec_writes_flagged hexec Iff.rfl
  refine ⟨t, runs, result, ?_, rest⟩
  cases bit : f.flag with
  | false => rw [clear (ne_true_of_eq_false bit)]; rfl
  | true => rw [set bit]; rfl

theorem shrFlagged_result_toNat (a : Byte) : (shrFlagged a).result.toNat = a.toNat / 2 := by
  have := a.isLt
  rw [shrFlagged, BitVec.toNat_ofNat]
  omega

theorem shrFlagged_flag_toNat (a : Byte) : (shrFlagged a).flag.toNat = a.toNat % 2 := by
  rw [shrFlagged, BitVec.getLsbD, Nat.toNat_testBit, Nat.pow_zero, Nat.div_one]

theorem shlFlagged_result_toNat (a : Byte) : (shlFlagged a).result.toNat = 2 * a.toNat % 256 :=
  BitVec.toNat_ofNat _ _

/-- Bit 7 is the quotient by 128, which is 0 or 1 in a byte. -/
theorem shlFlagged_flag_toNat (a : Byte) : (shlFlagged a).flag.toNat = a.toNat / 128 := by
  have := a.isLt
  rw [shlFlagged, BitVec.getLsbD, Nat.toNat_testBit]
  omega

/-- Settles O25: a flagged write of the shifted register and the bit shifted out. -/
theorem shiftsMoveVxByOne : Obligations.ShiftsMoveVxByOne := by
  refine fun x y s => ⟨?right, ?left⟩
  case right =>
    obtain ⟨t, runs, result, flag, rest⟩ := exec_writes_flag_bit (exec_shr x y s)
    exact ⟨t, runs, fun hx => by rw [result hx, shrFlagged_result_toNat], by rw [flag, shrFlagged_flag_toNat], rest⟩
  case left =>
    obtain ⟨t, runs, result, flag, rest⟩ := exec_writes_flag_bit (exec_shl x y s)
    exact ⟨t, runs, fun hx => by rw [result hx, shlFlagged_result_toNat], by rw [flag, shlFlagged_flag_toNat], rest⟩

/-! ### I and the random byte -/

/-- What an instruction does that writes I and ends by default (R25, R30). -/
theorem exec_writes_idx {i : Instr} {s : State} {w : Word} (hexec : exec i s = .next (s.setIdx w).next) :
    ∃ t, exec i s = .next t ∧ t.idx = w ∧ Advanced s t ∧ OnlyRegs [] { s with idx := t.idx } t :=
  ⟨_, hexec, rfl, advanced_next rfl, onlyRegs_goto (s.setIdx w) _⟩

/-- The greatest glyph address is 5 * 255, so the 16-bit address is the product itself. -/
theorem glyphAddr_toNat (b : Byte) : (glyphAddr b).toNat = 5 * b.toNat := by
  have := b.isLt
  rw [glyphAddr, fontBase, BitVec.toNat_ofNat]
  omega

/-- Settles O26: each is a write of I, of the number the operand stands for. -/
theorem indexInstructionsSetI : Obligations.IndexInstructionsSetI := by
  refine ⟨fun nnn s => ?ldI, fun x s => ?addI, fun x s => ?ldFont⟩
  case ldI =>
    obtain ⟨t, runs, written, rest⟩ := exec_writes_idx (exec_ldI nnn s)
    exact ⟨t, runs, by rw [written, target_toNat], rest⟩
  case addI =>
    obtain ⟨t, runs, written, rest⟩ := exec_writes_idx (exec_addI x s)
    exact ⟨t, runs, by rw [written, BitVec.toNat_add, addend_toNat], rest⟩
  case ldFont =>
    obtain ⟨t, runs, written, rest⟩ := exec_writes_idx (exec_ldFont x s)
    exact ⟨t, runs, by rw [written, glyphAddr_toNat], rest⟩

/-- Settles O28: a register write of the masked byte in the state whose next random byte is a fresh one. -/
theorem rndMasksTheRandomByte : Obligations.RndMasksTheRandomByte := by
  intro x nn s
  have written : (s.drawRandom.2.setReg x (s.drawRandom.1 &&& nn)).next.reg x = Config.rnd s.rndIndex &&& nn := by
    rw [next_eq_goto, goto_reg, reg_setReg, if_pos rfl, drawRandom_fst]
  refine ⟨_, exec_rnd x nn s, fun k => ?bits, ?atMost, rfl, advanced_next rfl, onlyRegs_setReg s.drawRandom.2 x _ _⟩
  case bits => rw [written, BitVec.getLsbD_and]
  case atMost =>
    rw [written, BitVec.toNat_and]
    exact Nat.and_le_right

/-! ### The keypad -/

/-- The key a register value names is its value modulo 16 (R230, decision D5). -/
theorem keyDown_keyIndex (s : State) (b : Byte) (k : Fin 16) (h : k.val = b.toNat % 16) :
    s.keyDown (keyIndex b) = s.key[k] := by
  have same_key : (keyIndex b).toNat = k.val := by rw [keyIndex, BitVec.toNat_setWidth, h]
  simp only [State.keyDown, same_key, Fin.getElem_fin]

/-- Settles O31: each is a skip on the level of that key. -/
theorem keypadSkips : Obligations.KeypadSkips := by
  intro x s k named
  have level := keyDown_keyIndex s (s.reg x) k named
  exact ⟨exec_skips rfl (by rw [level]), exec_skips rfl (by rw [level, Bool.not_eq_true'])⟩

/-- The search finds the least key down: a key it finds below is up, and one it finds above leaves this one up. -/
theorem lowestKey_of_least {s : State} {k : Fin 16} (down : s.key[k] = true)
    (least : ∀ j : Fin 16, j < k → s.key[j] = false) : s.lowestKey = some k := by
  cases found : s.lowestKey with
  | none => cases ((lowestKey_eq_none s).1 found k).symm.trans down
  | some m =>
    obtain ⟨m_down, m_least⟩ := lowestKey_eq_some s m found
    rcases lt_trichotomy m k with below | rfl | above
    · cases (least m below).symm.trans m_down
    · rfl
    · cases (m_least k above).symm.trans down

/-- Settles O32: the search finds no key and the cycle waits, or it finds the least key and that is the register
written. -/
theorem ldKeyWaitsOrTakesTheLeastKey : Obligations.LdKeyWaitsOrTakesTheLeastKey := by
  refine ⟨fun x s up => ?waits, fun x s k down least => ?takes⟩
  case waits => exact ⟨_, exec_ldKey_of_none x s ((lowestKey_eq_none s).2 up), rfl, rfl⟩
  case takes =>
    obtain ⟨t, runs, written, rest⟩ := exec_writes_reg (exec_ldKey_of_some x s k (lowestKey_of_least down least))
    refine ⟨t, runs, ?_, rest⟩
    rw [written, BitVec.toNat_ofNat]
    omega

/-! ### Fetch coherence -/

theorem wordOfBytes_toNat (high low : Byte) : (wordOfBytes high low).toNat = high.toNat * 256 + low.toNat := by
  have := high.isLt
  have := low.isLt
  rw [wordOfBytes, BitVec.toNat_ofNat]
  omega

/-- Settles O37: the STORE leaves pc at I, where it has written V0 and V1. -/
theorem storedWordIsFetchedNext : Obligations.StoredWordIsFetchedNext := by
  intro x s two_bytes next_word inside
  obtain ⟨-, stores, -⟩ := storeWritesRegisters
  obtain ⟨t, runs, stored, -, ⟨pc, -⟩, -⟩ := stores x s inside
  have pc_at_idx : t.pc.toNat = s.idx.toNat := by omega
  have high : t.readByte s.idx.toNat = s.reg 0x0#4 := stored 0x0#4 (Nat.zero_le _)
  have low : t.readByte (s.idx.toNat + 1) = s.reg 0x1#4 := stored 0x1#4 two_bytes
  refine ⟨t, runs, (fetchable_iff t).2 (by omega), ?_⟩
  rw [State.fetchWord, wordOfBytes_toNat, pc_at_idx, high, low]

end Sys2Proof.Machine

/-! PROOFS. What the engine only shows to the host (spec/10_state.md R33 to R35): hiding it commutes with every
operation, up to what is hidden. -/

namespace Sys2Proof.Machine

/-- No instruction's test depends on an output: where there is one, it has the same answer with the outputs hidden. -/
theorem exec_hideOutputs (i : Instr) (s : State) :
    hideOutcome (exec i s) = hideOutcome (exec i s.hideOutputs) := by
  cases i with
  | ret u =>
    rcases Nat.eq_zero_or_pos s.sp.val with empty | used
    · rw [exec_ret_of_empty u s empty, exec_ret_of_empty u s.hideOutputs empty]; rfl
    · rw [exec_ret_of_used u s used, exec_ret_of_used u s.hideOutputs used]; rfl
  | call nnn =>
    rcases Nat.eq_or_lt_of_le (Nat.le_of_lt_succ s.sp.isLt) with full | room
    · rw [exec_call_of_full nnn s full, exec_call_of_full nnn s.hideOutputs full]; rfl
    · rw [exec_call_of_room nnn s room, exec_call_of_room nnn s.hideOutputs room]; rfl
  | ldKey x =>
    have same_key : s.hideOutputs.lowestKey = s.lowestKey := rfl
    simp only [exec, execLdKey, same_key]
    cases s.lowestKey <;> rfl
  | drw x y n => simp only [exec, execDrw, apply_ite hideOutcome]; rfl
  | ldBcd x => simp only [exec, execLdBcd, apply_ite hideOutcome]; rfl
  | store x => simp only [exec, execStore, apply_ite hideOutcome]; rfl
  | load x => simp only [exec, execLoad, apply_ite hideOutcome]; rfl
  | _ => rfl

theorem cycle_hideOutputs (s : State) : hideOutcome (cycle s) = hideOutcome (cycle s.hideOutputs) := by
  rcases cycle_cases s with ⟨hh, hc⟩ | ⟨hh, hf, hc⟩ | ⟨hh, hf, i, hd, hc⟩ | ⟨hh, hf, r, hd, hc⟩
  · rw [hc, cycle_of_halted (s := s.hideOutputs) hh]; rfl
  · rw [hc, cycle_of_unfetchable (s := s.hideOutputs) hh hf]; rfl
  · rw [hc, cycle_of_ok (s := s.hideOutputs) hh hf hd, exec_hideOutputs]
  · rw [hc, cycle_of_error (s := s.hideOutputs) hh hf hd]; rfl

theorem perform_hideOutputs (op : HostOp) (s : State) :
    hideOutcome (perform op s) = hideOutcome (perform op s.hideOutputs) := by
  cases op with
  | step => exact cycle_hideOutputs s.closeLoad
  | romLoad image => simp only [perform, State.romLoad, apply_ite hideOutcome]; rfl
  | _ => rfl

/-- Settles O46: the host's list is no output, so the same operation is performed. -/
theorem outputsNeverInfluenceTheMachine : Obligations.OutputsNeverInfluenceTheMachine := by
  intro s
  have same_op : s.hideOutputs.takeOp.1 = s.takeOp.1 := (takeOp_fst _).trans (takeOp_fst s).symm
  rw [step_eq_perform, step_eq_perform s.hideOutputs, same_op]
  exact perform_hideOutputs _ _

end Sys2Proof.Machine

/-! PROOFS. The reset (spec/49_host_operations.md R274), and the ticks of a run (spec/60_exceptions.md R319), in a row
and between other operations. -/

namespace Sys2Proof.Machine

/-! ### Reset -/

/-- A memory that lists nothing reads as the font, then zeros; past the font's end the default of `getD` is the zero. -/
theorem reset_readByte (a : Nat) : State.reset.readByte a = fontData.getD a 0#8 := rfl

/-- Settles O50: the literal of the reset state, field by field. -/
theorem resetLeavesTheseValues : Obligations.ResetLeavesTheseValues := by
  refine fun s => ⟨_, rfl, reset_reg, rfl, rfl, rfl, fun k => ?stack, rfl, rfl, blankScreen_pixel, fun k => ?key, rfl,
    fun a _ => reset_readByte a, fun a above => ?zeros, rfl, rfl, rfl, rfl, rfl, rfl, rfl, rfl, rfl, rfl, rfl⟩
  case stack => exact Vector.getElem_replicate _
  case key => exact Vector.getElem_replicate _
  case zeros => exact (reset_readByte a).trans (List.getD_eq_default _ _ above)

/-! ### Ticks -/

theorem countDown_toNat (b : Byte) : (countDown b).toNat = b.toNat - 1 := by
  unfold countDown
  split
  case isTrue zero => rw [zero]; rfl
  case isFalse nonzero => bv_omega

/-- A run of k + 1 steps with a next state is a step with a next state and a run of k from it. -/
theorem run_succ_eq_next_iff (M : Host.Core) (k : Nat) (s t : M.State) :
    M.run (k + 1) s = .next t ↔ ∃ u, M.step s = .next u ∧ M.run k u = .next t := by
  rw [Host.Core.run]
  cases M.step s <;> simp

theorem step_of_tick {s : State} {rest : List HostOp} (h : s.pending = .tick :: rest) :
    step s = .next (State.tick { s with pending := rest }) := by
  rw [step_eq_perform, takeOp_fst, h, List.headD_cons, List.tail_cons]
  rfl

/-- Settles O47, by induction on the number of ticks: a tick writes the timers and the list alone, and counts each timer
down by one. -/
theorem ticksCountDownToZero : Obligations.TicksCountDownToZero := by
  intro k
  induction k with
  | zero => exact fun s later listed => ⟨s, rfl, rfl, rfl, listed, rfl⟩
  | succ k ih =>
    intro s later listed
    have stepped := step_of_tick (s := s) listed
    obtain ⟨t, ran, dt, st, pending, kept⟩ :=
      ih (State.tick { s with pending := List.replicate k .tick ++ later }) later rfl
    refine ⟨t, (run_succ_eq_next_iff core k s t).2 ⟨_, stepped, ran⟩, ?dt, ?st, pending, ?kept⟩
    case dt => rw [dt, tick_dt, countDown_toNat, Nat.sub_sub, Nat.add_comm]
    case st => rw [st, tick_st, countDown_toNat, Nat.sub_sub, Nat.add_comm]
    case kept => exact congrArg (fun u => { u with dt := s.dt, st := s.st, pending := s.pending }) kept

/-! ### Ticks between other operations -/

theorem exec_pending {i : Instr} {s t : State} (runs : exec i s = .next t) : t.pending = s.pending := by
  cases ends_of_exec runs with
  | fatal | waiting => rfl
  | completed fine wrote goes => exact wrote.same_pending

/-- A cycle leaves both timers, or it is an instruction's. -/
theorem sameTimers_or_exec_of_cycle {s t : State} (performed : cycle s = .next t) :
    (SameTimers s t ∧ t.pending = s.pending) ∨
    (∃ i, s.fatalCause = .none ∧ s.pc.toNat ≤ 4094 ∧ decodeWord s.fetchWord = .ok i ∧ exec i s = .next t) := by
  rcases cycle_cases s with ⟨-, hc⟩ | ⟨-, -, hc⟩ | ⟨running, inside, i, decoded, hc⟩ | ⟨-, -, r, -, hc⟩
  all_goals rw [hc] at performed
  case inr.inr.inl =>
    exact .inr ⟨i, (halted_eq_false_iff s).1 running, (fetchable_iff s).1 inside, decoded, performed⟩
  all_goals
    cases performed
    exact .inl ⟨⟨rfl, rfl⟩, rfl⟩

/-- What a step other than a reset does with the timers: a tick counts both down, and any other operation leaves a
timer unless it is a Step that runs the instruction that sets it. -/
theorem step_timers {s t : State} (stepped : step s = .next t) (no_reset : s.takeOp.1 ≠ .reset) :
    t.pending = s.pending.tail ∧
    ((∀ x, ¬s.Runs (.setDt x)) → t.dt.toNat = s.dt.toNat - if s.takeOp.1 = .tick then 1 else 0) ∧
    ((∀ x, ¬s.Runs (.setSt x)) → t.st.toNat = s.st.toNat - if s.takeOp.1 = .tick then 1 else 0) := by
  rw [step_eq_perform] at stepped
  cases next_op : s.takeOp.1 with
  | reset => exact absurd next_op no_reset
  | tick =>
    rw [next_op] at stepped
    cases stepped
    exact ⟨rfl, fun _ => countDown_toNat s.dt, fun _ => countDown_toNat s.st⟩
  | step =>
    rw [next_op] at stepped
    rcases sameTimers_or_exec_of_cycle stepped with ⟨⟨dt, st⟩, pending⟩ | ⟨i, running, inside, decoded, runs⟩
    · exact ⟨pending, fun _ => congrArg BitVec.toNat dt, fun _ => congrArg BitVec.toNat st⟩
    · obtain ⟨-, -, dt, st⟩ := cyclesLeaveKeypadStackAndTimers i _ t runs
      have runs_it : s.Runs i := ⟨next_op, running, inside, decoded⟩
      refine ⟨exec_pending runs, fun never => congrArg BitVec.toNat (dt ?_),
        fun never => congrArg BitVec.toNat (st ?_)⟩
      all_goals
        rintro x rfl
        exact never x runs_it
  | romLoad image =>
    rw [next_op] at stepped
    obtain ⟨-, rfl⟩ := romLoad_eq_next stepped
    exact ⟨rfl, fun _ => rfl, fun _ => rfl⟩
  | _ =>
    rw [next_op] at stepped
    cases stepped
    exact ⟨rfl, fun _ => rfl, fun _ => rfl⟩

/-- The ticks among the next operations: the first one's, and those of the list without it. -/
theorem count_tick_take_succ (s : State) (k : Nat) :
    (s.pending.take (k + 1)).count .tick =
      (if s.takeOp.1 = .tick then 1 else 0) + (s.pending.tail.take k).count .tick := by
  rw [takeOp_fst]
  cases s.pending with
  | nil => simp
  | cons op rest => simp [List.count_cons, Nat.add_comm]

/-- A timer over a run of steps from idle states, in which a step counts the timer down by the ticks it performs. -/
theorem run_counts (timer : State → Byte) (Idle : State → Prop)
    (step_counts : ∀ s t, step s = .next t → s.takeOp.1 ≠ .reset → Idle s →
      (timer t).toNat = (timer s).toNat - if s.takeOp.1 = .tick then 1 else 0)
    (k : Nat) (s t : State) (ran : Host.Core.run core k s = .next t)
    (no_reset : ∀ j u, j < k → Host.Core.run core j s = .next u → u.takeOp.1 ≠ .reset)
    (idle : ∀ j u, j < k → Host.Core.run core j s = .next u → Idle u) :
    (timer t).toNat = (timer s).toNat - (s.pending.take k).count .tick := by
  induction k generalizing s with
  | zero =>
    cases ran
    rfl
  | succ k ih =>
    obtain ⟨u, stepped, ran_on⟩ := (run_succ_eq_next_iff core k s t).1 ran
    have from_s (j : Nat) (v : State) (ran_j : Host.Core.run core j u = .next v) :
        Host.Core.run core (j + 1) s = .next v := (run_succ_eq_next_iff core j s v).2 ⟨u, stepped, ran_j⟩
    have first_no_reset := no_reset 0 s (Nat.succ_pos k) rfl
    have first := step_counts s u stepped first_no_reset (idle 0 s (Nat.succ_pos k) rfl)
    have later := ih u ran_on
      (fun j v hj ran_j => no_reset (j + 1) v (Nat.succ_lt_succ hj) (from_s j v ran_j))
      (fun j v hj ran_j => idle (j + 1) v (Nat.succ_lt_succ hj) (from_s j v ran_j))
    obtain ⟨pending, -⟩ := step_timers stepped first_no_reset
    rw [later, first, pending, count_tick_take_succ, Nat.sub_sub]

/-- Settles O52: each timer over the run, idle when no SET_DT, or no SET_ST, is run. -/
theorem interleavedTicksCountDown : Obligations.InterleavedTicksCountDown := by
  intro k s t ran no_reset
  refine ⟨fun never => ?dt, fun never => ?st⟩
  case dt =>
    refine run_counts State.dt (fun u => ∀ x, ¬u.Runs (.setDt x)) (fun u v stepped not_reset => ?_) k s t ran no_reset
      fun j u hj ran_j x => never j u x hj ran_j
    obtain ⟨-, counts, -⟩ := step_timers stepped not_reset
    exact counts
  case st =>
    refine run_counts State.st (fun u => ∀ x, ¬u.Runs (.setSt x)) (fun u v stepped not_reset => ?_) k s t ran no_reset
      fun j u hj ran_j x => never j u x hj ran_j
    obtain ⟨-, -, counts⟩ := step_timers stepped not_reset
    exact counts

end Sys2Proof.Machine
